-- ==== Sys2Proof/Word.lean ====
section
/-! DEFINITION. The two word types of BPEP-CORE: a register word (00_scope.md R8, `CW` = 32) and a store byte
(20_memory.md R47). Arithmetic inside a command is exact on naturals (R8, R13), so nothing else stands here. -/

namespace Sys2Proof

/-- A register value, an operand or a command word: 32 bits, unsigned (00_scope.md R8, 10_state.md R24). -/
abbrev Word := BitVec 32

/-- One byte of the store, of INBUF or of OUTBUF (20_memory.md R47, R50). -/
abbrev Byte := BitVec 8

end Sys2Proof
end

