-- ==== Sys2Proof/Config.lean ====
section
/-! DEFINITION. The implementation parameters of 00_scope.md section 4. There are two and no others (R12). -/

namespace Sys2Proof

/-- The OPEN parameters STORE_CAP (00_scope.md R9) and IN_CAP (R10), each a natural of at most 2^32 - 1. "A model
takes it as an argument": they travel in State, no step changes them, and a statement about every state is a statement
about every capacity. DESIGN CHOICE (log entry 1; safe for statements about every state). -/
structure Config where
  /-- STORE_CAP: the byte capacity of the storage collaborator. -/
  storeCap : Fin (2 ^ 32)
  /-- IN_CAP: the byte capacity of INBUF. -/
  inCap : Fin (2 ^ 32)
  deriving DecidableEq, Repr

end Sys2Proof
end

