-- ==== Sys2Proof/Syntax.lean ====
section
/-! DEFINITION. The syntax of BPEP-CORE: the 13 commands of spec/opcode_table.json (30_encoding.md R72), the two
orientations and bit orders (10_state.md R28, R33), Mono values (00_scope.md R18), the host's four transaction kinds
(30_encoding.md R70) and the turns in which host, engine and platform move. -/

namespace Sys2Proof

/-- A buffer's orientation, the O field of a command word (00_scope.md R7, 10_state.md R33). -/
inductive Orientation where
  /-- O = 0: x is the packed axis. -/
  | horizontal
  /-- O = 1: y is the packed axis. -/
  | vertical
  deriving DecidableEq, Repr

/-- CONFIG.BITORD, the bit convention of a buffer (10_state.md R28). -/
inductive BitOrder where
  /-- 0: pixel offset 0 within a byte at bit 7. -/
  | msbFirst
  /-- 1: pixel offset 0 within a byte at bit 0. -/
  | lsbFirst
  deriving DecidableEq, Repr

/-- A pixel value (00_scope.md R18). -/
inductive Mono where
  | zero
  | one
  deriving DecidableEq, Repr

/-- The commands of BPEP-CORE, one constructor per row of spec/opcode_table.json. No row has an operand field: every
operand comes from the operand registers, INBUF or CONFIG (30_encoding.md R77). -/
inductive Instr where
  /-- `elen`, 0x00000001 (40_calculator.md R101). -/
  | elen
  /-- `baddr.h`, 0x00000002 (40_calculator.md R108). -/
  | baddrH
  /-- `baddr.v`, 0x00000012 (40_calculator.md R108). -/
  | baddrV
  /-- `norm`, 0x00000003 (40_calculator.md R111). -/
  | norm
  /-- `new.h`, 0x00000004 (42_construction.md R151). -/
  | newH
  /-- `new.v`, 0x00000014 (42_construction.md R151). -/
  | newV
  /-- `wdata.h`, 0x00000005 (42_construction.md R152). -/
  | wdataH
  /-- `wdata.v`, 0x00000015 (42_construction.md R152). -/
  | wdataV
  /-- `wpack.h`, 0x00000006 (42_construction.md R153). -/
  | wpackH
  /-- `wpack.v`, 0x00000016 (42_construction.md R153). -/
  | wpackV
  /-- `update`, 0x00000007 (41_transfer.md R121). -/
  | update
  /-- `extract`, 0x00000008 (41_transfer.md R127). -/
  | extract
  /-- `asvec`, 0x00000009 (41_transfer.md R131). -/
  | asvec
  deriving DecidableEq, Repr

/-- The host's transactions, "exactly four transaction kinds, each one atomic step of the host agent"
(30_encoding.md R70). A register index is 8 bits, so every index names a slot of the register space (10_state.md R22). -/
inductive Transaction where
  /-- WR: write the value to the register slot. -/
  | wr (index : BitVec 8) (value : Word)
  /-- RD: return the value of the register slot. -/
  | rd (index : BitVec 8)
  /-- LOADIN: replace INBUF. -/
  | loadin (bytes : List Byte)
  /-- READOUT: return OUTBUF. -/
  | readout
  deriving DecidableEq, Repr

/-- Who moves in a step: the host with one transaction, the engine (20_memory.md R62), or the platform asserting reset
(70_reset_and_hazards.md R190). The order of turns is open in the spec; the model holds it as data (log entry 2). -/
inductive Turn where
  | host (t : Transaction)
  | engine
  | reset
  deriving DecidableEq, Repr

/-- What a host transaction returned (70_reset_and_hazards.md R202). -/
inductive Observation where
  /-- RD of that index returned that word. -/
  | word (index : BitVec 8) (value : Word)
  /-- READOUT returned those bytes. -/
  | bytes (outbuf : List Byte)
  deriving DecidableEq, Repr

end Sys2Proof
end

