-- ==== Sys2Proof/WellFormed.lean ====
section
/-! DEFINITION. What is well formed: a legal command word (30_encoding.md R74, stated on the word's number and apart
from the decoder, so that the decoder can be held against it), a command, and a host transaction (R70). -/

namespace Sys2Proof

/-- R74, first check: `v[31:5] = 0`. -/
def WellFormed.reservedClear (v : Word) : Bool :=
  v.toNat / 32 == 0

/-- R74, second check: `v[3:0]` is one of 0x1 to 0x9. -/
def WellFormed.opcodeAssigned (v : Word) : Bool :=
  1 ≤ v.toNat % 16 && v.toNat % 16 ≤ 9

/-- R74, third check: `v[4] = 0` unless `v[3:0]` is 0x2, 0x4, 0x5 or 0x6. -/
def WellFormed.orientationAllowed (v : Word) : Bool :=
  v.toNat / 16 % 2 == 0 || [0x2, 0x4, 0x5, 0x6].contains (v.toNat % 16)

/-- A legal command word (30_encoding.md R74). -/
def WellFormed.word (v : Word) : Bool :=
  WellFormed.reservedClear v && WellFormed.opcodeAssigned v && WellFormed.orientationAllowed v

/-- A transaction the host may perform as far as its form goes: a LOADIN of at most IN_CAP bytes (30_encoding.md R70).
Register indices and values are in range by their types. -/
def WellFormed.transaction (cfg : Config) : Transaction → Bool
  | .wr _ _ => true
  | .rd _ => true
  | .loadin bytes => decide (bytes.length ≤ cfg.inCap.val)
  | .readout => true

/-- Every command is well formed: the rows of spec/opcode_table.json have no operand field that could be out of range. -/
def WellFormed.instr (_ : Instr) : Bool :=
  true

end Sys2Proof
end

