-- ==== Sys2Proof/Decode.lean ====
section
/-! DEFINITION. The command word: its fields (30_encoding.md R71), the total decoder (R76), which rejects every illegal
word by the name of the check it fails (60_exceptions.md R174), and the encoder, written from the opcode map (R72). -/

namespace Sys2Proof

/-- Why a command word is illegal (60_exceptions.md R174). All three complete with ERR_ILLEGAL; the name is for the
reader and is visible nowhere. -/
inductive Illegal where
  /-- A nonzero reserved bit [31:5]. -/
  | reservedBits
  /-- An opcode 0x0 or 0xA to 0xF. -/
  | opcode
  /-- O = 1 with an opcode that does not use it. -/
  | orientation
  deriving DecidableEq, Repr

/-- The OP field, bits [3:0] (30_encoding.md R71). -/
def fieldOp (v : Word) : BitVec 4 :=
  v.extractLsb' 0 4

/-- The O field, bit [4] (30_encoding.md R71). -/
def fieldO (v : Word) : BitVec 1 :=
  v.extractLsb' 4 1

/-- The RSV field, bits [31:5] (30_encoding.md R71). -/
def fieldRsv (v : Word) : BitVec 27 :=
  v.extractLsb' 5 27

/-- A command that does not use O: "`v[4] = 0`" (30_encoding.md R74). -/
def decodePlain (o : BitVec 1) (i : Instr) : Except Illegal Instr :=
  if o = 0#1 then .ok i else .error .orientation

/-- A command whose O selects the orientation (30_encoding.md R73). -/
def decodeOriented (o : BitVec 1) (h v : Instr) : Except Illegal Instr :=
  if o = 0#1 then .ok h else .ok v

/-- The decoder, total on every 32-bit word (30_encoding.md R76). -/
def decode (v : Word) : Except Illegal Instr :=
  if fieldRsv v ≠ 0#27 then .error .reservedBits
  else
    match fieldOp v with
    | 0x1#4 => decodePlain (fieldO v) .elen
    | 0x2#4 => decodeOriented (fieldO v) .baddrH .baddrV
    | 0x3#4 => decodePlain (fieldO v) .norm
    | 0x4#4 => decodeOriented (fieldO v) .newH .newV
    | 0x5#4 => decodeOriented (fieldO v) .wdataH .wdataV
    | 0x6#4 => decodeOriented (fieldO v) .wpackH .wpackV
    | 0x7#4 => decodePlain (fieldO v) .update
    | 0x8#4 => decodePlain (fieldO v) .extract
    | 0x9#4 => decodePlain (fieldO v) .asvec
    | _ => .error .opcode

/-- A command word from its fields, RSV = 0 (30_encoding.md R71). -/
def commandWord (op : BitVec 4) (o : BitVec 1) : Word :=
  (0#27 ++ o) ++ op

/-- The word of each command (30_encoding.md R72). -/
def encode : Instr → Word
  | .elen => commandWord 0x1 0
  | .baddrH => commandWord 0x2 0
  | .baddrV => commandWord 0x2 1
  | .norm => commandWord 0x3 0
  | .newH => commandWord 0x4 0
  | .newV => commandWord 0x4 1
  | .wdataH => commandWord 0x5 0
  | .wdataV => commandWord 0x5 1
  | .wpackH => commandWord 0x6 0
  | .wpackV => commandWord 0x6 1
  | .update => commandWord 0x7 0
  | .extract => commandWord 0x8 0
  | .asvec => commandWord 0x9 0

/-- A row's bits as a command word. Register accesses are whole words, so no byte order arises (10_state.md R24):
bit k of the table's number is bit k of the word, and the bits above `nbits` are 0 (log entry 12). -/
def tableWord (nbits w : Nat) : Word :=
  BitVec.ofNat 32 (w % 2 ^ nbits)

/-- What the decoder reads from a row of spec/opcode_table.json; none where it refuses. -/
def decodeTableWord (nbits w : Nat) : Option Instr :=
  match decode (tableWord nbits w) with
  | .ok i => some i
  | .error _ => none

end Sys2Proof
end

