-- ==== Sys2Proof/Machine/Capacity.lean ====
section
/-! DEFINITION. The capacities of the machine that State.reset describes. The spec leaves STORE_CAP and IN_CAP open
(00_scope.md R9, R10). -/

namespace Sys2Proof.Machine

/-- STORE_CAP and IN_CAP of State.reset: the largest the spec allows, so that no construction and no LOADIN whose
length a 32-bit register can hold is turned away. DESIGN CHOICE (log entry 1; unsafe for a statement about State.reset
that leans on the number, and none does). -/
def resetConfig : Config :=
  { storeCap := ⟨2 ^ 32 - 1, by decide⟩, inCap := ⟨2 ^ 32 - 1, by decide⟩ }

end Sys2Proof.Machine
end

