-- ==== Sys2Proof/Machine/State.lean ====
section
/-! DEFINITION. The state record of 10_state.md R45 with the reset values of R44, the reasons a step stops, and three
fields of the model's own (cfg, schedule, observed; log entries 1, 2 and 3). -/

namespace Sys2Proof.Machine

/-- The store: (address, byte) pairs with strictly rising addresses. An address that is not listed holds no value yet:
"STORE bytes ... unspecified" (10_state.md R44), so reading it faults (log entry 5, safe). -/
abbrev Memory := List Host.Cell

/-- What `raise HostHazard(info)` records: the transaction's kind and register index (70_reset_and_hazards.md R197). -/
inductive HazardInfo where
  /-- A WR of that index while BUSY = 1 (hazard H1 for index 0x00, R194; else H2, R195). -/
  | write (index : BitVec 8)
  /-- An RD of that index, not STATUS, while BUSY = 1 (hazard H3, R196). -/
  | read (index : BitVec 8)
  /-- A LOADIN while BUSY = 1 (hazard H2, R195). -/
  | loadin
  /-- A READOUT while BUSY = 1 (hazard H3, R196). -/
  | readout
  deriving DecidableEq, Repr

/-- Why the machine stops with a fault. -/
inductive Fault where
  /-- Raised by every turn but reset in a state whose hazard mark is set: "The block's behaviour after a transaction of
  rule R194, R195 or R196 is undefined" (70_reset_and_hazards.md R197). Safe: the model stops where a block might go on. -/
  | hostHazard (info : HazardInfo)
  /-- Raised by MemRead and MemWrite at an address that is not below STORELEN and STORE_CAP (00_scope.md R16).
  Safe: no state that keeps the buffer invariant raises it (20_memory.md R49). -/
  | storeRange (address : Nat)
  /-- Raised by MemRead at an address below STORELEN that nothing has written since reset (10_state.md R38, R44).
  Safe: no state that keeps the machine's invariant raises it. -/
  | unwritten (address : Nat)
  deriving DecidableEq, Repr

/-- Why the machine refuses. -/
inductive Refusal where
  /-- Raised by exec's arm of an instruction that has no meaning yet; no arm does. Safe. -/
  | notModelled (mnemonic : String)
  /-- Raised by the host transaction LOADIN of that many bytes, more than IN_CAP: "a model has no move for it"
  (30_encoding.md R70). Safe: the model says nothing of such a run. -/
  | loadinTooLong (length : Nat)
  deriving DecidableEq, Repr

/-- The state of BPEP-CORE, field by field the record of 10_state.md R45. INLEN and OUTLEN are the lengths of `inbuf`
and `outbuf`, and the STATUS and CONFIG words are views of their fields (Machine/Flags.lean, Machine/Registers.lean).
The model's own fields stand last. -/
structure State where
  /-- CMD (R25): the last command word written. -/
  cmd : Word
  /-- PENDING (R42): the word in flight while BUSY = 1. -/
  pending : Word
  /-- STATUS.CODE (R26). -/
  code : BitVec 4
  /-- STATUS.BUSY (R26, R42). -/
  busy : Bool
  /-- Operand registers (R20). -/
  opx : Word
  opy : Word
  opw : Word
  oph : Word
  /-- Result registers (R27). -/
  res0 : Word
  res1 : Word
  res2 : Word
  res3 : Word
  /-- CONFIG.VALID, ORIENT and BITORD (R28). -/
  valid : Bool
  orient : Orientation
  bitord : BitOrder
  /-- Configuration registers (R29 to R31). -/
  width : Word
  height : Word
  eightlen : Word
  storelen : Word
  /-- INBUF (R40) and OUTBUF (R41). -/
  inbuf : List Byte
  outbuf : List Byte
  /-- STORE (R36). -/
  store : Memory
  /-- The HostHazard mark, set when it is some, with its info (70_reset_and_hazards.md R197). -/
  hazard : Option HazardInfo
  /-- Model: the OPEN parameters STORE_CAP and IN_CAP, which no step changes (log entry 1). -/
  cfg : Config
  /-- Model: the turns still to come, first first (log entry 2). -/
  schedule : List Turn
  /-- Model: what the host's RD and READOUT returned, newest first (70_reset_and_hazards.md R202, log entry 3). -/
  observed : List Observation
  deriving DecidableEq, Repr

/-- The machine right after reset (10_state.md R44). No byte of the store is listed (log entry 5); the capacities, the
schedule and the observations are the model's own (log entries 1, 2 and 3). -/
def State.reset : State where
  cmd := 0
  pending := 0
  code := 0
  busy := false
  opx := 0
  opy := 0
  opw := 0
  oph := 0
  res0 := 0
  res1 := 0
  res2 := 0
  res3 := 0
  valid := false
  orient := .horizontal
  bitord := .msbFirst
  width := 0
  height := 0
  eightlen := 0
  storelen := 0
  inbuf := []
  outbuf := []
  store := []
  hazard := none
  cfg := resetConfig
  schedule := []
  observed := []

end Sys2Proof.Machine
end

