-- ==== Sys2Proof/Machine/Flags.lean ====
section
/-! DEFINITION. The status codes of 60_exceptions.md R171, the completion of a command (R170), and the STATUS and CONFIG
words (10_state.md R26, R28). BPEP-CORE has no other flags and no traps (R178): completing with a code is the one shared
operation that stands where other machines take an exception. -/

namespace Sys2Proof.Machine

/-- The status codes that are ever produced (60_exceptions.md R171). -/
inductive Code where
  | ok
  | errLength
  | errNoBuffer
  | errIllegal
  deriving DecidableEq, Repr

/-- STATUS.CODE of a code (60_exceptions.md R171). -/
def codeBits : Code → BitVec 4
  | .ok => 0
  | .errLength => 1
  | .errNoBuffer => 2
  | .errIllegal => 3

/-- `finish(code)`: set STATUS.CODE and clear BUSY (60_exceptions.md R170). -/
def State.finish (c : Code) (s : State) : State :=
  { s with code := codeBits c, busy := false }

/-- The bit of an orientation (10_state.md R33). -/
def orientBit : Orientation → BitVec 1
  | .horizontal => 0
  | .vertical => 1

/-- The bit of a bit convention (10_state.md R28). -/
def bitOrderBit : BitOrder → BitVec 1
  | .msbFirst => 0
  | .lsbFirst => 1

/-- The STATUS word: [3:0] CODE, [4] BUSY, [31:5] zero (10_state.md R26). -/
def State.statusWord (s : State) : Word :=
  (0#27 ++ BitVec.ofBool s.busy) ++ s.code

/-- The CONFIG word: [0] VALID, [1] ORIENT, [2] BITORD, [31:3] zero (10_state.md R28). -/
def State.configWord (s : State) : Word :=
  ((0#29 ++ bitOrderBit s.bitord) ++ orientBit s.orient) ++ BitVec.ofBool s.valid

end Sys2Proof.Machine
end

