-- ==== Sys2Proof/Machine/Memory.lean ====
section
/-! DEFINITION. The store as a sorted list of cells: read and write one byte (20_memory.md R50), and the canonical form. -/

namespace Sys2Proof.Machine

/-- The canonical form: addresses strictly rising. No byte equals what an unlisted address reads as, since that is no
byte at all. -/
def Memory.wf : Memory → Bool
  | [] => true
  | [_] => true
  | (a, _) :: (b, v) :: rest => decide (a < b) && Memory.wf ((b, v) :: rest)

/-- The byte at an address, none where nothing has been written. -/
def Memory.read : Memory → Nat → Option Byte
  | [], _ => none
  | (b, v) :: rest, a => if a = b then some v else Memory.read rest a

/-- Set one byte and keep the addresses rising. -/
def Memory.write : Memory → Nat → Byte → Memory
  | [], a, v => [(a, v)]
  | (b, w) :: rest, a, v =>
    if a < b then (a, v) :: (b, w) :: rest
    else if a = b then (a, v) :: rest
    else (b, w) :: Memory.write rest a v

end Sys2Proof.Machine
end

