-- ==== Sys2Proof/Machine/Addressing.lean ====
section
/-! DEFINITION. The pure functions of 40_calculator.md on exact naturals: the eight-length (R100), bit addressing (R103 to
R107), the byte-alignment normalizer (R110), the Mono conversion (R113), and `required` (42_construction.md R150). -/

namespace Sys2Proof.Machine

/-- `eight_length(n)` (40_calculator.md R100). -/
def eightLength (n : Nat) : Nat :=
  if n < 8 then 1
  else if n % 8 = 0 then n / 8
  else n / 8 + 1

/-- `byte_index_H` (40_calculator.md R104); `x >> 3` is `x / 8` (00_scope.md R13). -/
def byteIndexH (x y stride : Nat) : Nat :=
  stride * y + x / 8

/-- `byte_index_V` (40_calculator.md R106). -/
def byteIndexV (x y stride : Nat) : Nat :=
  stride * (y / 8) + x

/-- Where a pixel lives (40_calculator.md R103): its byte index, its bit position `b`, and the physical bit of the byte. -/
structure BitAddress where
  index : Nat
  bit : Nat
  phys : Nat
  deriving DecidableEq, Repr

/-- Bit addressing: Horizontal is MSB-first (R104, R105), Vertical LSB-first (R106, R107). -/
def bitAddress (o : Orientation) (x y stride : Nat) : BitAddress :=
  match o with
  | .horizontal => { index := byteIndexH x y stride, bit := x % 8, phys := 7 - x % 8 }
  | .vertical => { index := byteIndexV x y stride, bit := y % 8, phys := y % 8 }

/-- The mask `1 << p` of a physical bit (40_calculator.md R105, R107). -/
def maskOf (phys : Nat) : Byte :=
  1#8 <<< phys

/-- A byte-aligned span in bytes (00_scope.md glossary). -/
structure Span where
  start : Nat
  length : Nat
  deriving DecidableEq, Repr

/-- `normalize(offset, extent)` (40_calculator.md R110); an empty extent has length 0 (90_conflicts.md C2). -/
def normalizeSpan (offset extent : Nat) : Span :=
  { start := offset / 8
    length := if extent = 0 then 0 else (offset + extent - 1) / 8 - offset / 8 + 1 }

/-- `mono(v)` (40_calculator.md R113). -/
def mono (v : Byte) : Mono :=
  if v = 0 then .zero else .one

/-- The dimension along the packed axis (10_state.md R33). -/
def packedDim (o : Orientation) (w h : Nat) : Nat :=
  match o with
  | .horizontal => w
  | .vertical => h

/-- The other dimension (10_state.md R33). -/
def otherDim (o : Orientation) (w h : Nat) : Nat :=
  match o with
  | .horizontal => h
  | .vertical => w

/-- `required(O, W, H)`, the store length of a buffer (42_construction.md R150). -/
def required (o : Orientation) (w h : Nat) : Nat :=
  eightLength (packedDim o w h) * otherDim o w h

/-- The bit convention that goes with an orientation: BITORD "always equals ORIENT" (10_state.md R28). -/
def bitOrderOf : Orientation → BitOrder
  | .horizontal => .msbFirst
  | .vertical => .lsbFirst

end Sys2Proof.Machine
end

