-- ==== Sys2Proof/Machine/Operands.lean ====
section
/-! DEFINITION. The operand forms of 30_encoding.md R77: the rectangle and the dimensions in OPX, OPY, OPW and OPH, read
when the command executes, and the bytes of INBUF (R78). All operands are unsigned. -/

namespace Sys2Proof.Machine

/-- A rectangle (x, y, width, height) (00_scope.md R19); also what EXTRACT returns, in its own units (41_transfer.md R129). -/
structure Rect where
  x : Nat
  y : Nat
  w : Nat
  h : Nat
  deriving DecidableEq, Repr

/-- The rectangle operand of UPDATE and EXTRACT: OPX, OPY, OPW, OPH (10_state.md R20, 30_encoding.md R77). -/
def State.rectOperand (s : State) : Rect :=
  { x := s.opx.toNat, y := s.opy.toNat, w := s.opw.toNat, h := s.oph.toNat }

/-- The whole buffer as a rectangle, the full-buffer update of WDATA (42_construction.md R152). -/
def State.fullRect (s : State) : Rect :=
  { x := 0, y := 0, w := s.width.toNat, h := s.height.toNat }

/-- `rx > WIDTH or ry > HEIGHT`, the strict test of 41_transfer.md R121 and R127 (90_conflicts.md C5). -/
def Rect.outside (r : Rect) (s : State) : Bool :=
  decide (s.width.toNat < r.x) || decide (s.height.toNat < r.y)

/-- Pixel value number `k` of INBUF, through `mono` (30_encoding.md R78). An index past the end is never read: the length
check comes first (41_transfer.md R122). DEDUCED (log entry 9, safe). -/
def State.inPixel (s : State) (k : Nat) : Mono :=
  mono (s.inbuf.getD k 0)

/-- The stride of the current buffer's bit addressing: EIGHTLEN when Horizontal, WIDTH when Vertical (40_calculator.md R115). -/
def State.stride (s : State) : Nat :=
  match s.orient with
  | .horizontal => s.eightlen.toNat
  | .vertical => s.width.toNat

/-- The bit address of a pixel of the current buffer (40_calculator.md R115). -/
def State.pixelAddress (s : State) (x y : Nat) : BitAddress :=
  bitAddress s.orient x y s.stride

end Sys2Proof.Machine
end

