-- ==== Sys2Proof/Machine/Ops.lean ====
section
/-! DEFINITION. The operations the commands share: MemRead and MemWrite (00_scope.md R16), runs of them, the draw
micro-operations (40_calculator.md R114, R115), the clamped rectangle of UPDATE and WDATA (41_transfer.md R121), the named
updates of State, `install` (42_construction.md R155), and how a command ends (60_exceptions.md R170). -/

namespace Sys2Proof.Machine

/-- The addresses MemRead and MemWrite are defined for: below STORELEN (00_scope.md R16), inside the storage
collaborator (20_memory.md R47). -/
def State.inStore (s : State) (a : Nat) : Bool :=
  decide (a < s.storelen.toNat) && decide (a < s.cfg.storeCap.val)

/-- Replace the store. -/
def State.setStore (m : Memory) (s : State) : State :=
  { s with store := m }

/-- Write RES0 to RES3 (10_state.md R27). A result of 2^32 or more is reduced, which only BADDR's index can be
(40_calculator.md R108). -/
def State.setRes (a b c d : Nat) (s : State) : State :=
  { s with res0 := BitVec.ofNat 32 a, res1 := BitVec.ofNat 32 b, res2 := BitVec.ofNat 32 c, res3 := BitVec.ofNat 32 d }

/-- Replace OUTBUF; OUTLEN follows (10_state.md R41). -/
def State.setOutbuf (bytes : List Byte) (s : State) : State :=
  { s with outbuf := bytes }

/-- `install(O, W, H, L)`, the configuration step of a construction (42_construction.md R155). -/
def State.install (o : Orientation) (w h : Word) (l : Nat) (s : State) : State :=
  { s with
    valid := true
    orient := o
    bitord := bitOrderOf o
    width := w
    height := h
    eightlen := BitVec.ofNat 32 (eightLength (packedDim o w.toNat h.toNat))
    storelen := BitVec.ofNat 32 l }

/-- `MemRead(a, 1)` (00_scope.md R16). -/
def memRead (a : Nat) (s : State) : Except Fault Byte :=
  if s.inStore a then
    match s.store.read a with
    | some v => .ok v
    | none => .error (.unwritten a)
  else .error (.storeRange a)

/-- `MemWrite(a, 1, v)` (00_scope.md R16). -/
def memWrite (a : Nat) (v : Byte) (s : State) : Except Fault State :=
  if s.inStore a then .ok (s.setStore (s.store.write a v))
  else .error (.storeRange a)

/-- MemRead at each address, in order. -/
def readBytes : List Nat → State → Except Fault (List Byte)
  | [], _ => .ok []
  | a :: as, s =>
    match memRead a s with
    | .error f => .error f
    | .ok v =>
      match readBytes as s with
      | .error f => .error f
      | .ok vs => .ok (v :: vs)

/-- MemWrite of consecutive bytes from an address up. -/
def writeBytes : Nat → List Byte → State → Except Fault State
  | _, [], s => .ok s
  | a, v :: vs, s =>
    match memWrite a v s with
    | .error f => .error f
    | .ok s' => writeBytes (a + 1) vs s'

/-- The new value of a byte in `draw_byte`: OR the mask in, or AND the inverse mask (40_calculator.md R114). -/
def drawnByte (mask : Byte) (c : Mono) (v : Byte) : Byte :=
  match c with
  | .one => v ||| mask
  | .zero => v &&& ~~~mask

/-- `draw_byte(idx, mask, c)` (40_calculator.md R114). -/
def drawByte (idx : Nat) (mask : Byte) (c : Mono) (s : State) : Except Fault State :=
  match memRead idx s with
  | .error f => .error f
  | .ok v => memWrite idx (drawnByte mask c v) s

/-- `draw(x, y, c)` of the current buffer (40_calculator.md R115). -/
def draw (x y : Nat) (c : Mono) (s : State) : Except Fault State :=
  drawByte (s.pixelAddress x y).index (maskOf (s.pixelAddress x y).phys) c s

/-- One pixel to draw. -/
structure PixelWrite where
  x : Nat
  y : Nat
  c : Mono
  deriving DecidableEq, Repr

/-- Draw pixels one after the other. -/
def drawAll : List PixelWrite → State → Except Fault State
  | [], s => .ok s
  | p :: ps, s =>
    match draw p.x p.y p.c s with
    | .error f => .error f
    | .ok s' => drawAll ps s'

/-- `ew`, the effective width (41_transfer.md R121). -/
def effWidth (r : Rect) (s : State) : Nat :=
  min r.w (s.width.toNat - r.x)

/-- `eh`, the effective height (41_transfer.md R121). -/
def effHeight (r : Rect) (s : State) : Nat :=
  min r.h (s.height.toNat - r.y)

/-- The pixels of the clamped region in row-major order; pixel (rx + i, ry + j) takes value `j * rw + i` of INBUF, the
stride being that of the requested rectangle (41_transfer.md R121, R122). -/
def clampedPixels (r : Rect) (s : State) : List PixelWrite :=
  (List.range (effHeight r s)).flatMap fun j =>
    (List.range (effWidth r s)).map fun i =>
      { x := r.x + i, y := r.y + j, c := s.inPixel (j * r.w + i) }

/-- The loop of UPDATE and of WDATA (41_transfer.md R121, 42_construction.md R152). -/
def drawRect (r : Rect) (s : State) : Except Fault State :=
  drawAll (clampedPixels r s) s

/-- A command that completes with a code and no other effect (60_exceptions.md R170, R175). -/
def complete (c : Code) (s : State) : Host.Outcome State Fault Refusal :=
  .next (s.finish c)

/-- A command's body has run: it completes with OK, or the model faults where the body left the store. -/
def completeBody (r : Except Fault State) : Host.Outcome State Fault Refusal :=
  match r with
  | .ok s => .next (s.finish .ok)
  | .error f => .fault f

end Sys2Proof.Machine
end

