-- ==== Sys2Proof/Machine/Calculator.lean ====
section
/-! DEFINITION. The calculator family (40_calculator.md): ELEN, BADDR and NORM. None needs a buffer, reads buffer state
or touches the store. -/

namespace Sys2Proof.Machine

/-- `elen` (40_calculator.md R101). -/
def execElen (s : State) : Host.Outcome State Fault Refusal :=
  complete .ok (s.setRes (eightLength s.opw.toNat) 0 0 0)

/-- BADDR in one orientation (40_calculator.md R108): `cx` = OPX, `cy` = OPY, stride = OPW; the index is exact and
reduced mod 2^32 when it is written. -/
def baddr (o : Orientation) (s : State) : Host.Outcome State Fault Refusal :=
  let b := bitAddress o s.opx.toNat s.opy.toNat s.opw.toNat
  complete .ok (s.setRes b.index (maskOf b.phys).toNat b.bit b.phys)

/-- `baddr.h` (40_calculator.md R108). -/
def execBaddrH (s : State) : Host.Outcome State Fault Refusal :=
  baddr .horizontal s

/-- `baddr.v` (40_calculator.md R108). -/
def execBaddrV (s : State) : Host.Outcome State Fault Refusal :=
  baddr .vertical s

/-- `norm` (40_calculator.md R111): offset = OPX, extent = OPW. -/
def execNorm (s : State) : Host.Outcome State Fault Refusal :=
  let span := normalizeSpan s.opx.toNat s.opw.toNat
  complete .ok (s.setRes span.start span.length 0 0)

end Sys2Proof.Machine
end

