-- ==== Sys2Proof/Machine/Construction.lean ====
section
/-! DEFINITION. The construction family (42_construction.md): NEW, WDATA and WPACK in both orientations. Width is OPW and
height is OPH. The length checks come before the first store write, so a failed construction changes only STATUS.CODE and
BUSY (R154). The configuration is installed before the bytes are written: MemWrite is defined below STORELEN only
(00_scope.md R16) and the order inside one atomic command is not observable (20_memory.md R62). DEDUCED (log entry 7, safe). -/

namespace Sys2Proof.Machine

/-- The store length the operands ask for (42_construction.md R150). -/
def State.requiredOperand (o : Orientation) (s : State) : Nat :=
  required o s.opw.toNat s.oph.toNat

/-- The capacity check (42_construction.md R150), then `install` (R155) and the bytes of the store from address 0 up. -/
def build (o : Orientation) (bytes : List Byte) (s : State) : Except Fault State :=
  writeBytes 0 bytes (s.install o s.opw s.oph (s.requiredOperand o))

/-- A zero-filled store of the required length. -/
def zeroBytes (o : Orientation) (s : State) : List Byte :=
  List.replicate (s.requiredOperand o) 0

/-- NEW (42_construction.md R151). -/
def newBuffer (o : Orientation) (s : State) : Host.Outcome State Fault Refusal :=
  if s.cfg.storeCap.val < s.requiredOperand o then complete .errLength s
  else completeBody (build o (zeroBytes o s) s)

/-- WDATA (42_construction.md R152): a zero buffer, then the full-buffer update. -/
def wdataBuffer (o : Orientation) (s : State) : Host.Outcome State Fault Refusal :=
  if s.inbuf.length ≠ s.opw.toNat * s.oph.toNat then complete .errLength s
  else if s.cfg.storeCap.val < s.requiredOperand o then complete .errLength s
  else
    match build o (zeroBytes o s) s with
    | .error f => .fault f
    | .ok s' => completeBody (drawRect s'.fullRect s')

/-- WPACK (42_construction.md R153): the bytes of INBUF verbatim. -/
def wpackBuffer (o : Orientation) (s : State) : Host.Outcome State Fault Refusal :=
  if s.inbuf.length ≠ s.requiredOperand o then complete .errLength s
  else if s.cfg.storeCap.val < s.requiredOperand o then complete .errLength s
  else completeBody (build o s.inbuf s)

/-- `new.h` (42_construction.md R151). -/
def execNewH (s : State) : Host.Outcome State Fault Refusal :=
  newBuffer .horizontal s

/-- `new.v` (42_construction.md R151). -/
def execNewV (s : State) : Host.Outcome State Fault Refusal :=
  newBuffer .vertical s

/-- `wdata.h` (42_construction.md R152). -/
def execWdataH (s : State) : Host.Outcome State Fault Refusal :=
  wdataBuffer .horizontal s

/-- `wdata.v` (42_construction.md R152). -/
def execWdataV (s : State) : Host.Outcome State Fault Refusal :=
  wdataBuffer .vertical s

/-- `wpack.h` (42_construction.md R153). -/
def execWpackH (s : State) : Host.Outcome State Fault Refusal :=
  wpackBuffer .horizontal s

/-- `wpack.v` (42_construction.md R153). -/
def execWpackV (s : State) : Host.Outcome State Fault Refusal :=
  wpackBuffer .vertical s

end Sys2Proof.Machine
end

