-- ==== Sys2Proof/Machine/Transfer.lean ====
section
/-! DEFINITION. The transfer family (41_transfer.md): UPDATE, EXTRACT and ASVEC. All three need a buffer and take its
orientation from CONFIG.ORIENT. The checks stand in the order of 60_exceptions.md R176. -/

namespace Sys2Proof.Machine

/-- `update` (41_transfer.md R121). -/
def execUpdate (s : State) : Host.Outcome State Fault Refusal :=
  if s.valid = false then complete .errNoBuffer s
  else if s.inbuf.length ≠ s.opw.toNat * s.oph.toNat then complete .errLength s
  else if s.rectOperand.outside s then complete .ok s
  else completeBody (drawRect s.rectOperand s)

/-- The transfer descriptor of an EXTRACT (41_transfer.md R126): `start` in bytes along the packed axis, `other` in
pixels along the other axis, the clipped byte and pixel counts, and the rectangle reported. -/
structure Descriptor where
  orient : Orientation
  start : Nat
  other : Nat
  plen : Nat
  olen : Nat
  rect : Rect
  deriving DecidableEq, Repr

/-- `compute_part(rx, ry, rw, rh)` (41_transfer.md R126). -/
def computePart (r : Rect) (s : State) : Descriptor :=
  match s.orient with
  | .horizontal =>
    let span := normalizeSpan r.x r.w
    let lc := min span.length (s.eightlen.toNat - span.start)
    let hc := min r.h (s.height.toNat - r.y)
    { orient := .horizontal, start := span.start, other := r.y, plen := lc, olen := hc
      rect := { x := span.start, y := r.y, w := lc, h := hc } }
  | .vertical =>
    let span := normalizeSpan r.y r.h
    let lc := min span.length (s.eightlen.toNat - span.start)
    let wc := min r.w (s.width.toNat - r.x)
    { orient := .vertical, start := span.start, other := r.x, plen := lc, olen := wc
      rect := { x := r.x, y := span.start, w := wc, h := lc } }

/-- The store addresses of `copy(D)` in the order of the result's bytes (41_transfer.md R128): Horizontal `olen` rows of
`plen` bytes, Vertical `plen` pages of `olen` bytes. -/
def copyAddresses (d : Descriptor) (s : State) : List Nat :=
  match d.orient with
  | .horizontal =>
    (List.range d.olen).flatMap fun r =>
      (List.range d.plen).map fun c => s.eightlen.toNat * (d.other + r) + d.start + c
  | .vertical =>
    (List.range d.plen).flatMap fun p =>
      (List.range d.olen).map fun c => s.width.toNat * (d.start + p) + d.other + c

/-- `extract` (41_transfer.md R127). -/
def execExtract (s : State) : Host.Outcome State Fault Refusal :=
  if s.valid = false then complete .errNoBuffer s
  else if s.rectOperand.outside s then complete .ok ((s.setOutbuf []).setRes 0 0 0 0)
  else
    let d := computePart s.rectOperand s
    match readBytes (copyAddresses d s) s with
    | .error f => .fault f
    | .ok bytes => complete .ok ((s.setOutbuf bytes).setRes d.rect.x d.rect.y d.rect.w d.rect.h)

/-- `asvec` (41_transfer.md R131). -/
def execAsvec (s : State) : Host.Outcome State Fault Refusal :=
  if s.valid = false then complete .errNoBuffer s
  else
    match readBytes (List.range s.storelen.toNat) s with
    | .error f => .fault f
    | .ok bytes => complete .ok (s.setOutbuf bytes)

end Sys2Proof.Machine
end

