-- ==== Sys2Proof/Machine/Dispatch.lean ====
section
/-! DEFINITION. exec: what the engine does with each legal command (30_encoding.md R72), one arm per constructor. -/

namespace Sys2Proof.Machine

def exec (i : Instr) (s : State) : Host.Outcome State Fault Refusal :=
  match i with
  | .elen => Sys2Proof.Machine.execElen s
  | .baddrH => Sys2Proof.Machine.execBaddrH s
  | .baddrV => Sys2Proof.Machine.execBaddrV s
  | .norm => Sys2Proof.Machine.execNorm s
  | .newH => Sys2Proof.Machine.execNewH s
  | .newV => Sys2Proof.Machine.execNewV s
  | .wdataH => Sys2Proof.Machine.execWdataH s
  | .wdataV => Sys2Proof.Machine.execWdataV s
  | .wpackH => Sys2Proof.Machine.execWpackH s
  | .wpackV => Sys2Proof.Machine.execWpackV s
  | .update => Sys2Proof.Machine.execUpdate s
  | .extract => Sys2Proof.Machine.execExtract s
  | .asvec => Sys2Proof.Machine.execAsvec s

end Sys2Proof.Machine
end

