-- ==== Sys2Proof/Machine/Engine.lean ====
section
/-! DEFINITION. The engine's turn (10_state.md R42): enabled when BUSY = 1, it runs the command in PENDING to completion
as one atomic step; an illegal word completes with ERR_ILLEGAL (60_exceptions.md R174). -/

namespace Sys2Proof.Machine

/-- Run the word in PENDING (10_state.md R42, 30_encoding.md R76). -/
def runPending (s : State) : Host.Outcome State Fault Refusal :=
  match decode s.pending with
  | .ok i => exec i s
  | .error _ => complete .errIllegal s

/-- The engine's turn. With BUSY = 0 its step is not enabled and the block "keeps all state" (60_exceptions.md R188):
DESIGN CHOICE, the turn passes (log entry 10, safe). -/
def engineTurn (s : State) : Host.Outcome State Fault Refusal :=
  if s.busy then runPending s else .next s

end Sys2Proof.Machine
end

