-- ==== Sys2Proof/Machine/Registers.lean ====
section
/-! DEFINITION. The register space (10_state.md R22): the 17 registers, their indices, and what a host read returns and a
host write does. Every access is a whole word (R24). -/

namespace Sys2Proof.Machine

/-- The registers by name (10_state.md R22). -/
inductive Reg where
  | cmd
  | status
  | opx
  | opy
  | opw
  | oph
  | res0
  | res1
  | res2
  | res3
  | config
  | width
  | height
  | eightlen
  | storelen
  | inlen
  | outlen
  deriving DecidableEq, Repr

/-- The index of a register (10_state.md R22). -/
def regIndex : Reg → BitVec 8
  | .cmd => 0x00
  | .status => 0x01
  | .opx => 0x02
  | .opy => 0x03
  | .opw => 0x04
  | .oph => 0x05
  | .res0 => 0x06
  | .res1 => 0x07
  | .res2 => 0x08
  | .res3 => 0x09
  | .config => 0x0A
  | .width => 0x0B
  | .height => 0x0C
  | .eightlen => 0x0D
  | .storelen => 0x0E
  | .inlen => 0x0F
  | .outlen => 0x10

/-- The register at an index; none for the reserved indices 0x11 to 0xFF (10_state.md R22). -/
def regAt (i : BitVec 8) : Option Reg :=
  match i with
  | 0x00#8 => some .cmd
  | 0x01#8 => some .status
  | 0x02#8 => some .opx
  | 0x03#8 => some .opy
  | 0x04#8 => some .opw
  | 0x05#8 => some .oph
  | 0x06#8 => some .res0
  | 0x07#8 => some .res1
  | 0x08#8 => some .res2
  | 0x09#8 => some .res3
  | 0x0A#8 => some .config
  | 0x0B#8 => some .width
  | 0x0C#8 => some .height
  | 0x0D#8 => some .eightlen
  | 0x0E#8 => some .storelen
  | 0x0F#8 => some .inlen
  | 0x10#8 => some .outlen
  | _ => none

/-- The word a register holds (10_state.md R25 to R32). -/
def regValue (r : Reg) (s : State) : Word :=
  match r with
  | .cmd => s.cmd
  | .status => s.statusWord
  | .opx => s.opx
  | .opy => s.opy
  | .opw => s.opw
  | .oph => s.oph
  | .res0 => s.res0
  | .res1 => s.res1
  | .res2 => s.res2
  | .res3 => s.res3
  | .config => s.configWord
  | .width => s.width
  | .height => s.height
  | .eightlen => s.eightlen
  | .storelen => s.storelen
  | .inlen => BitVec.ofNat 32 s.inbuf.length
  | .outlen => BitVec.ofNat 32 s.outbuf.length

/-- What a host read of an index returns: 0 for a reserved one (10_state.md R23). -/
def readIndex (i : BitVec 8) (s : State) : Word :=
  match regAt i with
  | some r => regValue r s
  | none => 0

/-- The issue: a write of `v` to CMD sets CMD and PENDING to `v` and BUSY to 1 (10_state.md R25, R42). -/
def State.issue (v : Word) (s : State) : State :=
  { s with cmd := v, pending := v, busy := true }

/-- Write OPX (10_state.md R20). -/
def State.setOpx (v : Word) (s : State) : State :=
  { s with opx := v }

/-- Write OPY (10_state.md R20). -/
def State.setOpy (v : Word) (s : State) : State :=
  { s with opy := v }

/-- Write OPW (10_state.md R20). -/
def State.setOpw (v : Word) (s : State) : State :=
  { s with opw := v }

/-- Write OPH (10_state.md R20). -/
def State.setOph (v : Word) (s : State) : State :=
  { s with oph := v }

/-- What a host write does to a register: a read-only one is unchanged (10_state.md R23). -/
def writeReg (r : Reg) (v : Word) (s : State) : State :=
  match r with
  | .cmd => s.issue v
  | .opx => s.setOpx v
  | .opy => s.setOpy v
  | .opw => s.setOpw v
  | .oph => s.setOph v
  | .status => s
  | .res0 => s
  | .res1 => s
  | .res2 => s
  | .res3 => s
  | .config => s
  | .width => s
  | .height => s
  | .eightlen => s
  | .storelen => s
  | .inlen => s
  | .outlen => s

/-- What a host write of an index does: nothing for a reserved one (10_state.md R23). -/
def writeIndex (i : BitVec 8) (v : Word) (s : State) : State :=
  match regAt i with
  | some r => writeReg r v s
  | none => s

end Sys2Proof.Machine
end

