-- ==== Sys2Proof/Machine/HostPort.lean ====
section
/-! DEFINITION. The host's transactions (30_encoding.md R70) and the host hazards (70_reset_and_hazards.md R194 to R197). -/

namespace Sys2Proof.Machine

/-- The one transaction the host may perform while BUSY = 1: `rd STATUS` (30_encoding.md R70, 70_reset_and_hazards.md R196). -/
def isStatusRead : Transaction → Bool
  | .rd i => decide (i = regIndex .status)
  | .wr _ _ => false
  | .loadin _ => false
  | .readout => false

/-- The info of a hazard: the transaction's kind and register index (70_reset_and_hazards.md R197). -/
def hazardInfo : Transaction → HazardInfo
  | .wr i _ => .write i
  | .rd i => .read i
  | .loadin _ => .loadin
  | .readout => .readout

/-- `raise HostHazard(info)`: set the mark and record the transaction (70_reset_and_hazards.md R197). What else the block
does is undefined; the model changes nothing else and lets no turn but reset follow. DESIGN CHOICE (log entry 4, safe). -/
def State.raiseHazard (info : HazardInfo) (s : State) : State :=
  { s with hazard := some info }

/-- Record what a transaction returned (70_reset_and_hazards.md R202). -/
def State.observe (o : Observation) (s : State) : State :=
  { s with observed := o :: s.observed }

/-- Replace INBUF; INLEN follows (10_state.md R40). -/
def State.setInbuf (bytes : List Byte) (s : State) : State :=
  { s with inbuf := bytes }

/-- The effect of a transaction that raises no hazard (30_encoding.md R70). -/
def transact (t : Transaction) (s : State) : State :=
  match t with
  | .wr i v => writeIndex i v s
  | .rd i => s.observe (.word i (readIndex i s))
  | .loadin bytes => s.setInbuf bytes
  | .readout => s.observe (.bytes s.outbuf)

/-- The length of a LOADIN, 0 for any other transaction. -/
def loadinLength : Transaction → Nat
  | .loadin bytes => bytes.length
  | .wr _ _ => 0
  | .rd _ => 0
  | .readout => 0

/-- A host turn. A LOADIN of more than IN_CAP bytes "is not a transaction BPEP-CORE accepts" (30_encoding.md R70) and is
refused, whether BUSY or not (log entry 8, safe). While BUSY = 1 every transaction but `rd STATUS` is a host hazard. -/
def hostTurn (t : Transaction) (s : State) : Host.Outcome State Fault Refusal :=
  if WellFormed.transaction s.cfg t = false then .refused (.loadinTooLong (loadinLength t))
  else if s.busy && !isStatusRead t then .next (s.raiseHazard (hazardInfo t))
  else .next (transact t s)

end Sys2Proof.Machine
end

