-- ==== Sys2Proof/Machine/Reset.lean ====
section
/-! DEFINITION. The platform's reset of a running machine (70_reset_and_hazards.md R190). -/

namespace Sys2Proof.Machine

/-- "every piece of state takes the value of 10_state.md rule R44 in one step": a command in flight is abandoned, the
hazard mark is cleared, and the store's bytes are unspecified again, so none is listed (log entry 5). The capacities are
the hardware's, and the schedule and the observations are the host's: reset does not touch them (log entry 11). -/
def State.afterReset (s : State) : State :=
  { State.reset with cfg := s.cfg, schedule := s.schedule, observed := s.observed }

end Sys2Proof.Machine
end

