-- ==== Sys2Proof/Machine/Turns.lean ====
section
/-! DEFINITION. One turn of one agent, and which agent's turn it is. -/

namespace Sys2Proof.Machine

/-- One turn. Once the hazard mark is set, reset alone moves: "no later step clears [it] except reset, and no claim is
made about a state with the mark set" (70_reset_and_hazards.md R197; log entry 4, safe). -/
def takeTurn (t : Turn) (s : State) : Host.Outcome State Fault Refusal :=
  match t, s.hazard with
  | .reset, _ => .next s.afterReset
  | .engine, none => engineTurn s
  | .host x, none => hostTurn x s
  | .engine, some info => .fault (.hostHazard info)
  | .host _, some info => .fault (.hostHazard info)

/-- Whose turn it is: the schedule's first, and the engine's when the schedule has run out (weak fairness,
70_reset_and_hazards.md R201; log entry 2). -/
def State.nextTurn (s : State) : Turn :=
  match s.schedule with
  | [] => .engine
  | t :: _ => t

/-- The state with the next turn taken off the schedule. -/
def State.dropTurn (s : State) : State :=
  { s with schedule := s.schedule.tail }

/-- A command word placed in flight with the engine's turn next: what a host's WR to CMD leaves (10_state.md R42), the
hazard mark clear. -/
def State.place (v : Word) (s : State) : State :=
  { s.issue v with hazard := none, schedule := .engine :: s.schedule }

end Sys2Proof.Machine
end

