-- ==== Sys2Proof/Machine/Step.lean ====
section
/-! DEFINITION. One step of the machine: one turn of one agent (20_memory.md R62). -/

namespace Sys2Proof.Machine

/-- One step: the next turn is taken off the schedule and performed. -/
def step (s : State) : Host.Outcome State Fault Refusal :=
  takeTurn s.nextTurn s.dropTurn

/-- The state in which the very next step runs the command word with those bits: it is in CMD and PENDING, BUSY = 1, and
the engine's turn is next. BPEP-CORE has no program counter and fetches nothing (10_state.md R21, 20_memory.md R67);
a command comes from the host's write to CMD, for which this stands (log entry 2). -/
def State.withFetchWord (s : State) (nbits w : Nat) : State :=
  s.place (tableWord nbits w)

end Sys2Proof.Machine
end

