-- ==== Sys2Proof/Safety.lean ====
section
/-! DEFINITION. What a good state is, in the terms the statements use: the buffer invariant (10_state.md R34) and the
machine's invariant, and how a statement reads one bit or one pixel of the store. Every part is a decidable proposition. -/

namespace Sys2Proof.Safety

open Sys2Proof.Machine

/-- Physical bit `k` of store byte `a`, none where nothing has been written. -/
def storeBit (s : State) (a k : Nat) : Option Bool :=
  (s.store.read a).map fun v => v.getLsbD k

/-- The pixel (x, y) of the current buffer as the store holds it (40_calculator.md R115). -/
def pixel (s : State) (x y : Nat) : Option Bool :=
  storeBit s (s.pixelAddress x y).index (s.pixelAddress x y).phys

/-- The bit a Mono value is stored as (40_calculator.md R114). -/
def monoBit : Mono → Bool
  | .zero => false
  | .one => true

/-- The packed dimension of the current buffer (10_state.md R33). -/
def packedExtent (s : State) : Nat :=
  packedDim s.orient s.width.toNat s.height.toNat

/-- The other dimension of the current buffer (10_state.md R33). -/
def otherExtent (s : State) : Nat :=
  otherDim s.orient s.width.toNat s.height.toNat

/-- The buffer invariant (10_state.md R34): whenever VALID = 1, `EIGHTLEN = eight_length(packed dimension)`,
`STORELEN = EIGHTLEN * (non-packed dimension)` and `STORELEN <= STORE_CAP`. -/
abbrev BufferInv (s : State) : Prop :=
  s.valid = true →
    s.eightlen.toNat = eightLength (packedExtent s) ∧
    s.storelen.toNat = s.eightlen.toNat * otherExtent s ∧
    s.storelen.toNat ≤ s.cfg.storeCap.val

/-- Every byte of the current buffer has been written (10_state.md R38). -/
abbrev BufferWritten (s : State) : Prop :=
  s.valid = true → ∀ a < s.storelen.toNat, (s.store.read a).isSome = true

/-- A buffer the commands can work on. -/
abbrev GoodBuffer (s : State) : Prop :=
  BufferInv s ∧ BufferWritten s

/-- The machine's invariant: the store is canonical and inside the storage collaborator (20_memory.md R47), the buffer
invariant holds and its bytes are written (R34, R38), BITORD equals ORIENT (R28), the code is one that is produced (R26),
CMD shows PENDING (R42), INBUF and OUTBUF fit (R40, R41), and without a buffer the configuration is as after reset (R44). -/
abbrev Inv (s : State) : Prop :=
  Memory.wf s.store = true ∧
  (∀ c ∈ s.store, c.1 < s.cfg.storeCap.val) ∧
  BufferInv s ∧
  BufferWritten s ∧
  s.bitord = bitOrderOf s.orient ∧
  s.code.toNat ≤ 3 ∧
  s.cmd = s.pending ∧
  s.inbuf.length ≤ s.cfg.inCap.val ∧
  s.outbuf.length ≤ s.cfg.storeCap.val ∧
  (s.valid = false →
    s.orient = .horizontal ∧ s.width = 0 ∧ s.height = 0 ∧ s.eightlen = 0 ∧ s.storelen = 0)

/-- The length checks of 60_exceptions.md R172: the command finds a length it does not accept. -/
def lengthFails (i : Instr) (s : State) : Bool :=
  let pixels := s.opw.toNat * s.oph.toNat
  let horizontal := eightLength s.opw.toNat * s.oph.toNat
  let vertical := eightLength s.oph.toNat * s.opw.toNat
  let cap := s.cfg.storeCap.val
  match i with
  | .newH => decide (cap < horizontal)
  | .newV => decide (cap < vertical)
  | .wdataH => decide (s.inbuf.length ≠ pixels ∨ cap < horizontal)
  | .wdataV => decide (s.inbuf.length ≠ pixels ∨ cap < vertical)
  | .wpackH => decide (s.inbuf.length ≠ horizontal ∨ cap < horizontal)
  | .wpackV => decide (s.inbuf.length ≠ vertical ∨ cap < vertical)
  | .update => decide (s.inbuf.length ≠ pixels)
  | .elen => false
  | .baddrH => false
  | .baddrV => false
  | .norm => false
  | .extract => false
  | .asvec => false

/-- The buffer check of 60_exceptions.md R173: UPDATE, EXTRACT or ASVEC with VALID = 0. -/
def lacksBuffer (i : Instr) (s : State) : Bool :=
  match i with
  | .update => !s.valid
  | .extract => !s.valid
  | .asvec => !s.valid
  | .elen => false
  | .baddrH => false
  | .baddrV => false
  | .norm => false
  | .newH => false
  | .newV => false
  | .wdataH => false
  | .wdataV => false
  | .wpackH => false
  | .wpackV => false

/-- Two states the host cannot tell apart by the store: they agree in everything but the store, and while a buffer exists
in every byte below STORELEN (10_state.md R38, 20_memory.md R48). -/
abbrev SameView (s s' : State) : Prop :=
  s' = { s with store := s'.store } ∧
  (s.valid = true → ∀ a < s.storelen.toNat, s'.store.read a = s.store.read a)

/-- Two outcomes the host cannot tell apart by the store: next states of the same view, or the same fault or refusal. -/
def Alike : Host.Outcome State Fault Refusal → Host.Outcome State Fault Refusal → Prop
  | .next t, .next t' => SameView t t'
  | .fault f, .fault f' => f = f'
  | .refused r, .refused r' => r = r'
  | .next _, .fault _ => False
  | .next _, .refused _ => False
  | .fault _, .next _ => False
  | .fault _, .refused _ => False
  | .refused _, .next _ => False
  | .refused _, .fault _ => False

end Sys2Proof.Safety
end

