-- ==== Sys2Proof/Certificates/Slice0/Obligations.lean ====
section
/-! DEFINITION. The statements for the provers. Each docstring names the rule of spec/ it formalises. Where a statement
needs a premise on the state, it is the buffer invariant or the machine's invariant of Safety.lean, which
`InvHoldsAtReset` and `EveryStepKeepsInv` state on their own. -/

open Sys2Proof Sys2Proof.Machine Sys2Proof.Safety

/-! ### Encoding -/

/-- 30_encoding.md R72, R76: the words of the opcode map decode to the commands they stand for. -/
def Obligations.ListedWordsDecode : Prop :=
  decode 0x00000001#32 = .ok .elen ∧
  decode 0x00000002#32 = .ok .baddrH ∧ decode 0x00000012#32 = .ok .baddrV ∧
  decode 0x00000003#32 = .ok .norm ∧
  decode 0x00000004#32 = .ok .newH ∧ decode 0x00000014#32 = .ok .newV ∧
  decode 0x00000005#32 = .ok .wdataH ∧ decode 0x00000015#32 = .ok .wdataV ∧
  decode 0x00000006#32 = .ok .wpackH ∧ decode 0x00000016#32 = .ok .wpackV ∧
  decode 0x00000007#32 = .ok .update ∧
  decode 0x00000008#32 = .ok .extract ∧
  decode 0x00000009#32 = .ok .asvec

/-- 30_encoding.md R71, R72, R76: decoding an encoded command gives it back, and a word that decodes is the encoding of
what it decodes to, so no bit of a word is dropped. -/
def Obligations.DecodeAndEncodeAgree : Prop :=
  (∀ i : Instr, decode (encode i) = .ok i) ∧
  ∀ (v : Word) (i : Instr), decode v = .ok i → v = encode i

/-- 30_encoding.md R74: a word is legal exactly when its three checks hold, there are 13 legal words, and every other
word completes with ERR_ILLEGAL and changes nothing else. -/
def Obligations.LegalWordsAreTheThirteen : Prop :=
  (∀ v : Word, (∃ i, decode v = .ok i) ↔
    v.toNat / 32 = 0 ∧ (1 ≤ v.toNat % 16 ∧ v.toNat % 16 ≤ 9) ∧
      (v.toNat / 16 % 2 = 0 ∨ v.toNat % 16 = 2 ∨ v.toNat % 16 = 4 ∨ v.toNat % 16 = 5 ∨ v.toNat % 16 = 6)) ∧
  (∀ v : Word, (∃ i, decode v = .ok i) ↔
    v ∈ ([0x01, 0x02, 0x12, 0x03, 0x04, 0x14, 0x05, 0x15, 0x06, 0x16, 0x07, 0x08, 0x09] : List Word)) ∧
  ∀ s : State, (¬∃ i, decode s.pending = .ok i) →
    runPending s = .next { s with code := 3, busy := false }

/-! ### The step -/

/-- 10_state.md R42: when the engine's turn is next, BUSY = 1 and the pending word decodes to a command, a step is the
execution of that command; around it the step only takes the turn off the schedule. -/
def Obligations.StepRunsDecodedCommand : Prop :=
  ∀ (s : State) (i : Instr), s.hazard = none → s.busy = true → s.nextTurn = .engine →
    decode s.pending = .ok i → step s = exec i { s with schedule := s.schedule.tail }

/-- The placed word is what the very next step runs (log entry 2): from any state, with that word in CMD and PENDING. -/
def Obligations.PlacedWordRunsNext : Prop :=
  ∀ (s : State) (nbits w : Nat) (i : Instr), decodeTableWord nbits w = some i →
    step (s.withFetchWord nbits w) =
      exec i { s with cmd := tableWord nbits w, pending := tableWord nbits w, busy := true, hazard := none }

/-- 60_exceptions.md R188: with BUSY = 0 the engine's turn keeps all state (log entry 10: only the model's schedule moves on). -/
def Obligations.IdleEngineKeepsState : Prop :=
  ∀ s : State, s.hazard = none → s.busy = false → s.nextTurn = .engine →
    step s = .next { s with schedule := s.schedule.tail }

/-- 70_reset_and_hazards.md R201: a command in flight completes once the host does nothing but read STATUS, after as many
reads as it makes. That the engine moves once the listed turns are done is the model's choice (log entry 2). -/
def Obligations.WaitingHostSeesCompletion : Prop :=
  ∀ s : State, GoodBuffer s → s.hazard = none → s.busy = true →
    (∀ x ∈ s.schedule, x = .host (.rd 0x01)) →
    ∃ t, Host.Core.run Sys2Proof.core (s.schedule.length + 1) s = .next t ∧ t.busy = false ∧
      t.observed.length = s.observed.length + s.schedule.length

/-! ### Host transactions -/

/-- 10_state.md R25, R42: a host write to CMD with BUSY = 0 sets CMD and PENDING and raises BUSY, and nothing else. -/
def Obligations.CmdWriteIssuesCommand : Prop :=
  ∀ (s : State) (v : Word), s.hazard = none → s.busy = false → s.nextTurn = .host (.wr 0x00 v) →
    step s = .next { s with cmd := v, pending := v, busy := true, schedule := s.schedule.tail }

/-- 10_state.md R20, R22: a host write with BUSY = 0 sets exactly the operand register it names. -/
def Obligations.OperandWritesSetTheirRegister : Prop :=
  ∀ (s : State) (v : Word), s.hazard = none → s.busy = false →
    (s.nextTurn = .host (.wr 0x02 v) → step s = .next { s with opx := v, schedule := s.schedule.tail }) ∧
    (s.nextTurn = .host (.wr 0x03 v) → step s = .next { s with opy := v, schedule := s.schedule.tail }) ∧
    (s.nextTurn = .host (.wr 0x04 v) → step s = .next { s with opw := v, schedule := s.schedule.tail }) ∧
    (s.nextTurn = .host (.wr 0x05 v) → step s = .next { s with oph := v, schedule := s.schedule.tail })

/-- 10_state.md R23: a host write to a read-only register or to a reserved index changes no state, and a host read of a
reserved index returns 0. -/
def Obligations.ReadOnlyWritesIgnoredReservedReadsZero : Prop :=
  (∀ (s : State) (i : BitVec 8) (v : Word), s.hazard = none → s.busy = false →
    s.nextTurn = .host (.wr i v) → (i = 0x01 ∨ 0x06 ≤ i.toNat) →
    step s = .next { s with schedule := s.schedule.tail }) ∧
  ∀ (s : State) (i : BitVec 8), s.hazard = none → s.busy = false → s.nextTurn = .host (.rd i) → 0x11 ≤ i.toNat →
    step s = .next { s with observed := .word i 0 :: s.observed, schedule := s.schedule.tail }

/-- 10_state.md R22, R26, R28, R32, 20_memory.md R53: a host read with BUSY = 0 returns the register the map names and
changes nothing; the words of STATUS and CONFIG are the sums of their fields. -/
def Obligations.RegisterReadsFollowTheMap : Prop :=
  ∀ (s : State) (i : BitVec 8), s.hazard = none → s.busy = false → s.nextTurn = .host (.rd i) →
    ∃ v : Word,
      step s = .next { s with observed := .word i v :: s.observed, schedule := s.schedule.tail } ∧
      (i = 0x00 → v = s.cmd) ∧ (i = 0x01 → v.toNat = s.code.toNat) ∧
      (i = 0x02 → v = s.opx) ∧ (i = 0x03 → v = s.opy) ∧ (i = 0x04 → v = s.opw) ∧ (i = 0x05 → v = s.oph) ∧
      (i = 0x06 → v = s.res0) ∧ (i = 0x07 → v = s.res1) ∧ (i = 0x08 → v = s.res2) ∧ (i = 0x09 → v = s.res3) ∧
      (i = 0x0A → v.toNat =
        (if s.valid then 1 else 0) + (if s.orient = .vertical then 2 else 0) +
          (if s.bitord = .lsbFirst then 4 else 0)) ∧
      (i = 0x0B → v = s.width) ∧ (i = 0x0C → v = s.height) ∧ (i = 0x0D → v = s.eightlen) ∧
      (i = 0x0E → v = s.storelen) ∧
      (i = 0x0F → v.toNat = s.inbuf.length % 2 ^ 32) ∧ (i = 0x10 → v.toNat = s.outbuf.length % 2 ^ 32)

/-- 10_state.md R26, 70_reset_and_hazards.md R196: a read of STATUS is always allowed, BUSY or not, and returns the code
of the last completed command in [3:0], BUSY in [4] and zero above. -/
def Obligations.StatusReadAlwaysAllowed : Prop :=
  ∀ s : State, s.hazard = none → s.nextTurn = .host (.rd 0x01) →
    ∃ v : Word, v.toNat = s.code.toNat + (if s.busy then 16 else 0) ∧
      step s = .next { s with observed := .word 0x01 v :: s.observed, schedule := s.schedule.tail }

/-- 30_encoding.md R70, 10_state.md R40: a LOADIN with BUSY = 0 replaces INBUF and nothing else when it has at most IN_CAP
bytes, and is refused when it has more (log entry 8). -/
def Obligations.LoadinReplacesInbuf : Prop :=
  ∀ (s : State) (bytes : List Byte), s.hazard = none → s.nextTurn = .host (.loadin bytes) →
    (s.busy = false → bytes.length ≤ s.cfg.inCap.val →
      step s = .next { s with inbuf := bytes, schedule := s.schedule.tail }) ∧
    (s.cfg.inCap.val < bytes.length → step s = .refused (.loadinTooLong bytes.length))

/-- 30_encoding.md R70, 10_state.md R41: a READOUT with BUSY = 0 returns OUTBUF and changes nothing. -/
def Obligations.ReadoutReturnsOutbuf : Prop :=
  ∀ s : State, s.hazard = none → s.busy = false → s.nextTurn = .host .readout →
    step s = .next { s with observed := .bytes s.outbuf :: s.observed, schedule := s.schedule.tail }

/-- 70_reset_and_hazards.md R194 to R197: while BUSY = 1 every host transaction but `rd STATUS` (a LOADIN of at most
IN_CAP bytes among them) sets the hazard mark with the transaction's kind and index. That nothing else changes is the
model's choice (log entry 4) and is not stated. -/
def Obligations.HostHazardSetsTheMark : Prop :=
  ∀ (s : State) (x : Transaction), s.hazard = none → s.busy = true → s.nextTurn = .host x →
    x ≠ .rd 0x01 → (∀ bytes, x = .loadin bytes → bytes.length ≤ s.cfg.inCap.val) →
    ∃ t info, step s = .next t ∧ t.hazard = some info ∧
      (∀ i v, x = .wr i v → info = .write i) ∧ (∀ i, x = .rd i → info = .read i) ∧
      (∀ bytes, x = .loadin bytes → info = .loadin) ∧ (x = .readout → info = .readout)

/-- 70_reset_and_hazards.md R197 with log entry 4: once the mark is set, a reset clears it and every other turn is a fault
that names the hazard. -/
def Obligations.HazardStopsAllButReset : Prop :=
  ∀ (s : State) (info : HazardInfo), s.hazard = some info →
    (s.nextTurn ≠ .reset → step s = .fault (.hostHazard info)) ∧
    (s.nextTurn = .reset → ∃ t, step s = .next t ∧ t.hazard = none)

/-- 70_reset_and_hazards.md R194 to R197: nothing but a host transaction made while BUSY = 1, and no `rd STATUS`, ever
sets the mark. -/
def Obligations.OnlyBusyTransactionsSetTheMark : Prop :=
  ∀ (s t : State) (info : HazardInfo), s.hazard = none → step s = .next t → t.hazard = some info →
    s.busy = true ∧ ∃ x, s.nextTurn = .host x ∧ x ≠ .rd 0x01

/-! ### Reset -/

/-- 10_state.md R44: the values after reset that the spec states. The store's bytes are unspecified there, and the
capacities, the schedule and the observations are the model's own; nothing is said of them. -/
def Obligations.ResetLeavesTheStatedValues : Prop :=
  let s := State.reset
  s.cmd = 0 ∧ s.pending = 0 ∧ s.code = 0 ∧ s.busy = false ∧
  s.opx = 0 ∧ s.opy = 0 ∧ s.opw = 0 ∧ s.oph = 0 ∧
  s.res0 = 0 ∧ s.res1 = 0 ∧ s.res2 = 0 ∧ s.res3 = 0 ∧
  s.valid = false ∧ s.orient = .horizontal ∧ s.bitord = .msbFirst ∧ s.configWord = 0 ∧ s.statusWord = 0 ∧
  s.width = 0 ∧ s.height = 0 ∧ s.eightlen = 0 ∧ s.storelen = 0 ∧
  s.inbuf = [] ∧ s.outbuf = [] ∧ s.hazard = none

/-- 70_reset_and_hazards.md R190: a reset turn, whatever is in flight, gives every register, the mark and the buffers the
values of 10_state.md R44 in one step. That the model's own fields (the capacities, the turns still to come, the
observations) stay is the model's reading (log entry 11). -/
def Obligations.ResetTurnGivesResetValues : Prop :=
  ∀ s : State, s.nextTurn = .reset →
    ∃ t, step s = .next t ∧
      t = { State.reset with
        store := t.store, cfg := s.cfg, schedule := s.schedule.tail, observed := s.observed }

/-! ### The machine as a whole -/

/-- 10_state.md R34, R44: the state after reset meets the machine's invariant. -/
def Obligations.InvHoldsAtReset : Prop :=
  Inv State.reset

/-- 10_state.md R26, R28, R34, R38, R40 to R42, 20_memory.md R47: every step of every agent keeps the machine's
invariant: the store canonical and inside STORE_CAP, the buffer invariant and its bytes written, BITORD equal to ORIENT, a
code that is produced, CMD equal to PENDING, INBUF and OUTBUF within their capacities, and an empty configuration without a
buffer. -/
def Obligations.EveryStepKeepsInv : Prop :=
  ∀ s t : State, Inv s → step s = .next t → Inv t

/-- 60_exceptions.md R170, 70_reset_and_hazards.md R200: on a good buffer, or with none, every command runs to completion. -/
def Obligations.EveryCommandCompletes : Prop :=
  ∀ (s : State) (i : Instr), GoodBuffer s → ∃ t, exec i s = .next t ∧ t.busy = false

/-- 20_memory.md R49, 10_state.md R38: from a state that meets the invariant and holds no hazard mark no step faults, and the
only refusal is of a LOADIN over IN_CAP (log entry 8). -/
def Obligations.GoodStatesNeverFault : Prop :=
  ∀ s : State, Inv s → s.hazard = none →
    (∃ t, step s = .next t) ∨
    ∃ bytes, s.nextTurn = .host (.loadin bytes) ∧ s.cfg.inCap.val < bytes.length ∧
      step s = .refused (.loadinTooLong bytes.length)

/-- 60_exceptions.md R175: a command, legal or not, that completes with a code other than OK changes only STATUS.CODE and
clears BUSY. -/
def Obligations.FailedCommandChangesOnlyCode : Prop :=
  ∀ s t : State, runPending s = .next t → t.code ≠ 0 → t = { s with code := t.code, busy := false }

/-- 10_state.md R20, R25, R40, R42: no command writes CMD, PENDING, an operand register, INBUF or the hazard mark, nor a
field of the model's own, and each one clears BUSY. -/
def Obligations.EngineWritesNoHostState : Prop :=
  ∀ s t : State, runPending s = .next t →
    t.cmd = s.cmd ∧ t.pending = s.pending ∧ t.opx = s.opx ∧ t.opy = s.opy ∧ t.opw = s.opw ∧ t.oph = s.oph ∧
    t.inbuf = s.inbuf ∧ t.hazard = s.hazard ∧ t.cfg = s.cfg ∧ t.schedule = s.schedule ∧ t.observed = s.observed ∧
    t.busy = false

/-- 10_state.md R46: the columns of the write table: which command leaves RES0 to RES3, OUTBUF, the store and the
configuration as they were, that a construction writes no store byte at or above the new STORELEN, and that UPDATE writes
no bit of the store but those of the pixels in the clamped region. -/
def Obligations.CommandsWriteOnlyTheirState : Prop :=
  ∀ (s t : State) (i : Instr), exec i s = .next t →
    ((i ≠ .elen ∧ i ≠ .baddrH ∧ i ≠ .baddrV ∧ i ≠ .norm ∧ i ≠ .extract) →
      t.res0 = s.res0 ∧ t.res1 = s.res1 ∧ t.res2 = s.res2 ∧ t.res3 = s.res3) ∧
    ((i ≠ .extract ∧ i ≠ .asvec) → t.outbuf = s.outbuf) ∧
    ((i = .elen ∨ i = .baddrH ∨ i = .baddrV ∨ i = .norm ∨ i = .extract ∨ i = .asvec) → t.store = s.store) ∧
    ((i = .elen ∨ i = .baddrH ∨ i = .baddrV ∨ i = .norm ∨ i = .update ∨ i = .extract ∨ i = .asvec) →
      t.valid = s.valid ∧ t.orient = s.orient ∧ t.bitord = s.bitord ∧ t.width = s.width ∧ t.height = s.height ∧
        t.eightlen = s.eightlen ∧ t.storelen = s.storelen) ∧
    (∀ a, t.storelen.toNat ≤ a → t.store.read a = s.store.read a) ∧
    (i = .update → ∀ a k, k < 8 →
      (∀ dx dy, dx < min s.opw.toNat (s.width.toNat - s.opx.toNat) →
        dy < min s.oph.toNat (s.height.toNat - s.opy.toNat) →
        a ≠ (s.pixelAddress (s.opx.toNat + dx) (s.opy.toNat + dy)).index ∨
          k ≠ (s.pixelAddress (s.opx.toNat + dx) (s.opy.toNat + dy)).phys) →
      storeBit t a k = storeBit s a k)

/-- 60_exceptions.md R171: only the four codes are produced, ERR_LENGTH by NEW, WDATA, WPACK and UPDATE alone,
ERR_NO_BUFFER by UPDATE, EXTRACT and ASVEC alone, ERR_ILLEGAL by an illegal word alone. -/
def Obligations.CodesComeFromTheirCommands : Prop :=
  ∀ s t : State, runPending s = .next t →
    (t.code = 0 ∧ ∃ i, decode s.pending = .ok i) ∨
    (t.code = 1 ∧ ∃ i, decode s.pending = .ok i ∧
      (i = .newH ∨ i = .newV ∨ i = .wdataH ∨ i = .wdataV ∨ i = .wpackH ∨ i = .wpackV ∨ i = .update)) ∨
    (t.code = 2 ∧ ∃ i, decode s.pending = .ok i ∧ (i = .update ∨ i = .extract ∨ i = .asvec)) ∨
    (t.code = 3 ∧ ¬∃ i, decode s.pending = .ok i)

/-- 60_exceptions.md R176: the first of these that applies decides: an illegal word; a missing buffer; a failed length
check; the no-op of UPDATE and of EXTRACT; the command's body, which completes with OK. -/
def Obligations.OutcomesHaveTheirPriority : Prop :=
  ∀ s : State,
    ((¬∃ i, decode s.pending = .ok i) → runPending s = .next { s with code := 3, busy := false }) ∧
    ∀ i, decode s.pending = .ok i →
      (lacksBuffer i s = true → runPending s = .next { s with code := 2, busy := false }) ∧
      (lacksBuffer i s = false →
        (lengthFails i s = true → runPending s = .next { s with code := 1, busy := false }) ∧
        (lengthFails i s = false →
          (i = .update → (s.width.toNat < s.opx.toNat ∨ s.height.toNat < s.opy.toNat) →
            runPending s = .next { s with code := 0, busy := false }) ∧
          (i = .extract → (s.width.toNat < s.opx.toNat ∨ s.height.toNat < s.opy.toNat) →
            runPending s = .next
              { s with outbuf := [], res0 := 0, res1 := 0, res2 := 0, res3 := 0, code := 0, busy := false }) ∧
          ∀ t, runPending s = .next t → t.code = 0))

/-- 10_state.md R28: once VALID is 1 it stays 1 until reset. -/
def Obligations.ValidStaysUntilReset : Prop :=
  ∀ s t : State, s.valid = true → step s = .next t → s.nextTurn ≠ .reset → t.valid = true

/-- 20_memory.md R65, 10_state.md R41: OUTBUF is an independent copy: no turn but a reset, and an EXTRACT or ASVEC the
engine runs, changes it. -/
def Obligations.OutbufChangesOnlyByReaders : Prop :=
  ∀ s t : State, step s = .next t → t.outbuf ≠ s.outbuf →
    s.nextTurn = .reset ∨
    (s.nextTurn = .engine ∧ s.busy = true ∧ (decode s.pending = .ok .extract ∨ decode s.pending = .ok .asvec))

/-- 00_scope.md R9, R10: STORE_CAP and IN_CAP are parameters: no step changes them (they are fields of the model's State,
log entry 1). -/
def Obligations.CapacitiesNeverChange : Prop :=
  ∀ s t : State, step s = .next t → t.cfg = s.cfg

/-- 10_state.md R38, 20_memory.md R48: the store contents left by reset, and the bytes at or above STORELEN, are never
observable. Two states that agree in all but the store, and with VALID = 1 in the bytes below STORELEN too, answer every
command, every step and every run of steps alike: with the same fault or refusal, or with next states that agree so again,
the host's observations among them. -/
def Obligations.StoreBeforeConstructionIsUnobservable : Prop :=
  ∀ s s' : State, SameView s s' →
    (∀ i, Alike (exec i s) (exec i s')) ∧
    Alike (step s) (step s') ∧
    ∀ n, Alike (Host.Core.run Sys2Proof.core n s) (Host.Core.run Sys2Proof.core n s')

/-! ### Calculator family -/

/-- 40_calculator.md R100, R101: ELEN, in every state. -/
def Obligations.ElenResult : Prop :=
  decode 0x00000001#32 = .ok .elen ∧
  ∀ s : State, ∃ t, exec .elen s = .next t ∧
    t = { s with res0 := t.res0, res1 := 0, res2 := 0, res3 := 0, code := 0, busy := false } ∧
    t.res0.toNat =
      (if s.opw.toNat < 8 then 1
       else if s.opw.toNat % 8 = 0 then s.opw.toNat / 8
       else s.opw.toNat / 8 + 1)

/-- 40_calculator.md R102: the properties of the eight-length and the source's examples. -/
def Obligations.EightLengthProperties : Prop :=
  (∀ n, 1 ≤ eightLength n ∧ eightLength n = max 1 ((n + 7) / 8) ∧ n ≤ 8 * eightLength n ∧
    (1 ≤ n → 8 * (eightLength n - 1) < n)) ∧
  eightLength 7 = 1 ∧ eightLength 8 = 1 ∧ eightLength 9 = 2 ∧ eightLength 16 = 2 ∧ eightLength 17 = 3

/-- 40_calculator.md R104, R105, R108: BADDR in the Horizontal orientation, in every state. -/
def Obligations.BaddrHorizontalResult : Prop :=
  decode 0x00000002#32 = .ok .baddrH ∧
  ∀ s : State, ∃ t, exec .baddrH s = .next t ∧
    t = { s with res0 := t.res0, res1 := t.res1, res2 := t.res2, res3 := t.res3, code := 0, busy := false } ∧
    t.res0.toNat = (s.opw.toNat * s.opy.toNat + s.opx.toNat / 8) % 2 ^ 32 ∧
    t.res1.toNat = 2 ^ (7 - s.opx.toNat % 8) ∧
    t.res2.toNat = s.opx.toNat % 8 ∧
    t.res3.toNat = 7 - s.opx.toNat % 8

/-- 40_calculator.md R106, R107, R108: BADDR in the Vertical orientation, in every state. -/
def Obligations.BaddrVerticalResult : Prop :=
  decode 0x00000012#32 = .ok .baddrV ∧
  ∀ s : State, ∃ t, exec .baddrV s = .next t ∧
    t = { s with res0 := t.res0, res1 := t.res1, res2 := t.res2, res3 := t.res3, code := 0, busy := false } ∧
    t.res0.toNat = (s.opw.toNat * (s.opy.toNat / 8) + s.opx.toNat) % 2 ^ 32 ∧
    t.res1.toNat = 2 ^ (s.opy.toNat % 8) ∧
    t.res2.toNat = s.opy.toNat % 8 ∧
    t.res3.toNat = s.opy.toNat % 8

/-- 40_calculator.md R109: in a valid buffer every pixel's byte index is below STORELEN and below 2^32, and two different
pixels never share both byte index and mask. -/
def Obligations.PixelsOwnTheirBits : Prop :=
  ∀ s : State, s.valid = true → BufferInv s →
    (∀ x y, x < s.width.toNat → y < s.height.toNat →
      (s.pixelAddress x y).index < s.storelen.toNat ∧ (s.pixelAddress x y).index < 2 ^ 32 ∧
        (s.pixelAddress x y).phys < 8) ∧
    ∀ x y x' y', x < s.width.toNat → y < s.height.toNat → x' < s.width.toNat → y' < s.height.toNat →
      (s.pixelAddress x y).index = (s.pixelAddress x' y').index →
      maskOf (s.pixelAddress x y).phys = maskOf (s.pixelAddress x' y').phys → x = x' ∧ y = y'

/-- 40_calculator.md R110, R111: NORM, in every state; the sums are exact and an empty extent has length 0. -/
def Obligations.NormResult : Prop :=
  decode 0x00000003#32 = .ok .norm ∧
  ∀ s : State, ∃ t, exec .norm s = .next t ∧
    t = { s with res0 := t.res0, res1 := t.res1, res2 := 0, res3 := 0, code := 0, busy := false } ∧
    t.res0.toNat = s.opx.toNat / 8 ∧
    t.res1.toNat =
      (if s.opw.toNat = 0 then 0 else (s.opx.toNat + s.opw.toNat - 1) / 8 - s.opx.toNat / 8 + 1)

/-- 40_calculator.md R112: the span is covering and minimal, and its length is bounded. -/
def Obligations.SpanIsMinimalAndCovering : Prop :=
  ∀ offset extent : Nat, 1 ≤ extent →
    (∀ k, ((normalizeSpan offset extent).start ≤ k ∧
        k < (normalizeSpan offset extent).start + (normalizeSpan offset extent).length) ↔
      ∃ q, offset ≤ q ∧ q < offset + extent ∧ q / 8 = k) ∧
    (normalizeSpan offset extent).length ≤ extent / 8 + 2 ∧ 1 ≤ (normalizeSpan offset extent).length

/-- 40_calculator.md R113, R114, R115, 20_memory.md R51: drawing a pixel of a good buffer answers, changes the store
only, gives the pixel its colour and leaves every other bit. -/
def Obligations.DrawChangesOneBit : Prop :=
  ∀ (s : State) (x y : Nat) (v : Byte), s.valid = true → GoodBuffer s → x < s.width.toNat → y < s.height.toNat →
    ∃ t, draw x y (mono v) s = .ok t ∧ t = { s with store := t.store } ∧
      pixel t x y = some (decide (v ≠ 0)) ∧
      ∀ a k, k < 8 → (a ≠ (s.pixelAddress x y).index ∨ k ≠ (s.pixelAddress x y).phys) →
        storeBit t a k = storeBit s a k

/-! ### Construction family -/

/-- 42_construction.md R150, R151, R155: NEW in both orientations: over capacity it fails with ERR_LENGTH; else it
installs the buffer, its bytes are 0x00, and the bytes above it stay. -/
def Obligations.NewBuildsZeroBuffer : Prop :=
  decode 0x00000004#32 = .ok .newH ∧ decode 0x00000014#32 = .ok .newV ∧
  ∀ s : State,
    (s.cfg.storeCap.val < eightLength s.opw.toNat * s.oph.toNat →
      exec .newH s = .next { s with code := 1, busy := false }) ∧
    (s.cfg.storeCap.val < eightLength s.oph.toNat * s.opw.toNat →
      exec .newV s = .next { s with code := 1, busy := false }) ∧
    (eightLength s.opw.toNat * s.oph.toNat ≤ s.cfg.storeCap.val → ∃ t, exec .newH s = .next t ∧
      t = { s with
        valid := true, orient := .horizontal, bitord := .msbFirst, width := s.opw, height := s.oph
        eightlen := t.eightlen, storelen := t.storelen, store := t.store, code := 0, busy := false } ∧
      t.eightlen.toNat = eightLength s.opw.toNat ∧
      t.storelen.toNat = eightLength s.opw.toNat * s.oph.toNat ∧
      (∀ a < t.storelen.toNat, t.store.read a = some 0) ∧
      ∀ a, t.storelen.toNat ≤ a → t.store.read a = s.store.read a) ∧
    (eightLength s.oph.toNat * s.opw.toNat ≤ s.cfg.storeCap.val → ∃ t, exec .newV s = .next t ∧
      t = { s with
        valid := true, orient := .vertical, bitord := .lsbFirst, width := s.opw, height := s.oph
        eightlen := t.eightlen, storelen := t.storelen, store := t.store, code := 0, busy := false } ∧
      t.eightlen.toNat = eightLength s.oph.toNat ∧
      t.storelen.toNat = eightLength s.oph.toNat * s.opw.toNat ∧
      (∀ a < t.storelen.toNat, t.store.read a = some 0) ∧
      ∀ a, t.storelen.toNat ≤ a → t.store.read a = s.store.read a)

/-- 42_construction.md R152: WDATA, Horizontal: the buffer is installed, pixel (x, y) holds `mono` of byte `y * W + x`,
every bit of the buffer that no pixel owns is 0, and the bytes above the buffer stay. -/
def Obligations.WdataHorizontalPacksPixels : Prop :=
  ∀ s : State, s.inbuf.length = s.opw.toNat * s.oph.toNat →
    eightLength s.opw.toNat * s.oph.toNat ≤ s.cfg.storeCap.val →
    ∃ t, exec .wdataH s = .next t ∧
      t = { s with
        valid := true, orient := .horizontal, bitord := .msbFirst, width := s.opw, height := s.oph
        eightlen := t.eightlen, storelen := t.storelen, store := t.store, code := 0, busy := false } ∧
      t.eightlen.toNat = eightLength s.opw.toNat ∧
      t.storelen.toNat = eightLength s.opw.toNat * s.oph.toNat ∧
      (∀ x y v, x < s.opw.toNat → y < s.oph.toNat → s.inbuf[y * s.opw.toNat + x]? = some v →
        storeBit t (eightLength s.opw.toNat * y + x / 8) (7 - x % 8) = some (decide (v ≠ 0))) ∧
      (∀ a k, a < t.storelen.toNat → k < 8 →
        (∀ x y, x < s.opw.toNat → y < s.oph.toNat →
          a ≠ eightLength s.opw.toNat * y + x / 8 ∨ k ≠ 7 - x % 8) →
        storeBit t a k = some false) ∧
      ∀ a, t.storelen.toNat ≤ a → t.store.read a = s.store.read a

/-- 42_construction.md R152: WDATA, Vertical. -/
def Obligations.WdataVerticalPacksPixels : Prop :=
  ∀ s : State, s.inbuf.length = s.opw.toNat * s.oph.toNat →
    eightLength s.oph.toNat * s.opw.toNat ≤ s.cfg.storeCap.val →
    ∃ t, exec .wdataV s = .next t ∧
      t = { s with
        valid := true, orient := .vertical, bitord := .lsbFirst, width := s.opw, height := s.oph
        eightlen := t.eightlen, storelen := t.storelen, store := t.store, code := 0, busy := false } ∧
      t.eightlen.toNat = eightLength s.oph.toNat ∧
      t.storelen.toNat = eightLength s.oph.toNat * s.opw.toNat ∧
      (∀ x y v, x < s.opw.toNat → y < s.oph.toNat → s.inbuf[y * s.opw.toNat + x]? = some v →
        storeBit t (s.opw.toNat * (y / 8) + x) (y % 8) = some (decide (v ≠ 0))) ∧
      (∀ a k, a < t.storelen.toNat → k < 8 →
        (∀ x y, x < s.opw.toNat → y < s.oph.toNat →
          a ≠ s.opw.toNat * (y / 8) + x ∨ k ≠ y % 8) →
        storeBit t a k = some false) ∧
      ∀ a, t.storelen.toNat ≤ a → t.store.read a = s.store.read a

/-- 42_construction.md R150, R153, R155: WPACK in both orientations: a wrong length or one over capacity fails with
ERR_LENGTH; else it installs the buffer and the store's bytes are INBUF's, unchanged, and the bytes above it stay. -/
def Obligations.WpackStoresBytesVerbatim : Prop :=
  decode 0x00000006#32 = .ok .wpackH ∧ decode 0x00000016#32 = .ok .wpackV ∧
  ∀ s : State,
    (s.inbuf.length ≠ eightLength s.opw.toNat * s.oph.toNat ∨ s.cfg.storeCap.val < s.inbuf.length →
      exec .wpackH s = .next { s with code := 1, busy := false }) ∧
    (s.inbuf.length ≠ eightLength s.oph.toNat * s.opw.toNat ∨ s.cfg.storeCap.val < s.inbuf.length →
      exec .wpackV s = .next { s with code := 1, busy := false }) ∧
    (s.inbuf.length = eightLength s.opw.toNat * s.oph.toNat → s.inbuf.length ≤ s.cfg.storeCap.val →
      ∃ t, exec .wpackH s = .next t ∧
        t = { s with
          valid := true, orient := .horizontal, bitord := .msbFirst, width := s.opw, height := s.oph
          eightlen := t.eightlen, storelen := t.storelen, store := t.store, code := 0, busy := false } ∧
        t.eightlen.toNat = eightLength s.opw.toNat ∧ t.storelen.toNat = s.inbuf.length ∧
        (∀ a < t.storelen.toNat, t.store.read a = s.inbuf[a]?) ∧
        ∀ a, t.storelen.toNat ≤ a → t.store.read a = s.store.read a) ∧
    (s.inbuf.length = eightLength s.oph.toNat * s.opw.toNat → s.inbuf.length ≤ s.cfg.storeCap.val →
      ∃ t, exec .wpackV s = .next t ∧
        t = { s with
          valid := true, orient := .vertical, bitord := .lsbFirst, width := s.opw, height := s.oph
          eightlen := t.eightlen, storelen := t.storelen, store := t.store, code := 0, busy := false } ∧
        t.eightlen.toNat = eightLength s.oph.toNat ∧ t.storelen.toNat = s.inbuf.length ∧
        (∀ a < t.storelen.toNat, t.store.read a = s.inbuf[a]?) ∧
        ∀ a, t.storelen.toNat ≤ a → t.store.read a = s.store.read a)

/-- 60_exceptions.md R172: the causes of ERR_LENGTH, each recording nothing but the code: when the command's length check
fails, the command changes only STATUS.CODE and BUSY, and no command gives ERR_LENGTH otherwise. -/
def Obligations.LengthErrorsAndTheirCauses : Prop :=
  (∀ (s : State) (i : Instr), lacksBuffer i s = false → lengthFails i s = true →
    exec i s = .next { s with code := 1, busy := false }) ∧
  ∀ (s t : State) (i : Instr), exec i s = .next t → t.code = 1 → lengthFails i s = true

/-- 42_construction.md R157: the round trip: the store after WDATA equals the store after NEW followed by UPDATE of
rectangle (0, 0, W, H) with the same INBUF, in both orientations. -/
def Obligations.WdataEqualsNewThenUpdate : Prop :=
  ∀ s : State, s.inbuf.length = s.opw.toNat * s.oph.toNat →
    (eightLength s.opw.toNat * s.oph.toNat ≤ s.cfg.storeCap.val →
      ∃ t1 t2 t3, exec .wdataH s = .next t1 ∧ exec .newH s = .next t2 ∧
        exec .update { t2 with opx := 0, opy := 0 } = .next t3 ∧ t3.code = 0 ∧ t3.store = t1.store) ∧
    (eightLength s.oph.toNat * s.opw.toNat ≤ s.cfg.storeCap.val →
      ∃ t1 t2 t3, exec .wdataV s = .next t1 ∧ exec .newV s = .next t2 ∧
        exec .update { t2 with opx := 0, opy := 0 } = .next t3 ∧ t3.code = 0 ∧ t3.store = t1.store)

/-- 42_construction.md R158: after a successful WPACK, ASVEC returns exactly the bytes of INBUF; after a successful NEW it
returns as many bytes 0x00 as the store has. -/
def Obligations.PackedRoundTrip : Prop :=
  (∀ (s t : State) (i : Instr), (i = .wpackH ∨ i = .wpackV) → exec i s = .next t → t.code = 0 →
    ∃ u, exec .asvec t = .next u ∧ u.code = 0 ∧ u.outbuf = s.inbuf) ∧
  ∀ (s t : State) (i : Instr), (i = .newH ∨ i = .newV) → exec i s = .next t → t.code = 0 →
    ∃ u, exec .asvec t = .next u ∧ u.code = 0 ∧ u.outbuf = List.replicate t.storelen.toNat 0

/-- 42_construction.md R159: a WDATA and a WPACK of one orientation and size build the same buffer exactly when every
pixel's bit of the packed bytes is `mono` of its flat byte and every other bit of them is 0. -/
def Obligations.PackingEquivalence : Prop :=
  ∀ (s t : State) (o : Orientation) (packed : List Byte),
    ((o = .horizontal ∧ exec .wdataH s = .next t) ∨ (o = .vertical ∧ exec .wdataV s = .next t)) → t.code = 0 →
    packed.length = t.storelen.toNat →
    ∃ u, exec (if o = .horizontal then .wpackH else .wpackV) { s with inbuf := packed } = .next u ∧ u.code = 0 ∧
      u = { t with store := u.store, inbuf := packed } ∧
      ((∀ a < t.storelen.toNat, u.store.read a = t.store.read a) ↔
        (∀ x y v, x < s.opw.toNat → y < s.oph.toNat → s.inbuf[y * s.opw.toNat + x]? = some v →
          (packed.getD (t.pixelAddress x y).index 0).getLsbD (t.pixelAddress x y).phys = decide (v ≠ 0)) ∧
        ∀ a k, a < packed.length → k < 8 →
          (∀ x y, x < s.opw.toNat → y < s.oph.toNat →
            a ≠ (t.pixelAddress x y).index ∨ k ≠ (t.pixelAddress x y).phys) →
          (packed.getD a 0).getLsbD k = false)

/-! ### Transfer family -/

/-- 41_transfer.md R121, R122, R124: UPDATE on a good buffer, of the right length and not the no-op: each pixel of the
clamped region takes `mono` of its value (row stride: the requested width), and every other bit, register and byte stays. -/
def Obligations.UpdateWritesClampedRegion : Prop :=
  ∀ s : State, s.valid = true → GoodBuffer s → s.inbuf.length = s.opw.toNat * s.oph.toNat →
    s.opx.toNat ≤ s.width.toNat → s.opy.toNat ≤ s.height.toNat →
    ∃ t, exec .update s = .next t ∧
      t = { s with store := t.store, code := 0, busy := false } ∧
      (∀ i j v, i < min s.opw.toNat (s.width.toNat - s.opx.toNat) →
        j < min s.oph.toNat (s.height.toNat - s.opy.toNat) →
        s.inbuf[j * s.opw.toNat + i]? = some v →
        pixel t (s.opx.toNat + i) (s.opy.toNat + j) = some (decide (v ≠ 0))) ∧
      ∀ a k, k < 8 →
        (∀ i j, i < min s.opw.toNat (s.width.toNat - s.opx.toNat) →
          j < min s.oph.toNat (s.height.toNat - s.opy.toNat) →
          a ≠ (s.pixelAddress (s.opx.toNat + i) (s.opy.toNat + j)).index ∨
            k ≠ (s.pixelAddress (s.opx.toNat + i) (s.opy.toNat + j)).phys) →
        storeBit t a k = storeBit s a k

/-- 41_transfer.md R122, 42_construction.md R152: where in INBUF the pixels that UPDATE and WDATA draw come from. UPDATE,
past its checks, draws `clampedPixels`: the pixels (rx + i, ry + j) of the clamped region and no others, each with `mono` of
the byte of INBUF at `j * rw + i`, an index below the length. WDATA, on the buffer it has built, draws the pixels (x, y) of
the whole buffer, each with `mono` of the byte at `y * W + x`, below the length too. So the value `inPixel` has past the
end of INBUF (log entry 9) is never read. -/
def Obligations.UpdateReadsInsideInbuf : Prop :=
  (∀ s : State, s.inbuf.length = s.opw.toNat * s.oph.toNat →
    (∀ i j, i < min s.opw.toNat (s.width.toNat - s.opx.toNat) → j < min s.oph.toNat (s.height.toNat - s.opy.toNat) →
      j * s.opw.toNat + i < s.inbuf.length ∧
        ⟨s.opx.toNat + i, s.opy.toNat + j, s.inPixel (j * s.opw.toNat + i)⟩ ∈ clampedPixels s.rectOperand s) ∧
    (∀ p ∈ clampedPixels s.rectOperand s, ∃ i j v,
      i < min s.opw.toNat (s.width.toNat - s.opx.toNat) ∧ j < min s.oph.toNat (s.height.toNat - s.opy.toNat) ∧
        s.inbuf[j * s.opw.toNat + i]? = some v ∧ p = ⟨s.opx.toNat + i, s.opy.toNat + j, mono v⟩) ∧
    (s.valid = true → s.rectOperand.outside s = false →
      exec .update s = completeBody (drawAll (clampedPixels s.rectOperand s) s))) ∧
  ∀ (s : State) (o : Orientation), s.inbuf.length = s.opw.toNat * s.oph.toNat →
    required o s.opw.toNat s.oph.toNat ≤ s.cfg.storeCap.val →
    ∃ u, build o (zeroBytes o s) s = .ok u ∧
      exec (if o = .horizontal then .wdataH else .wdataV) s = completeBody (drawAll (clampedPixels u.fullRect u) u) ∧
      (∀ x y, x < s.opw.toNat → y < s.oph.toNat →
        y * s.opw.toNat + x < s.inbuf.length ∧
          ⟨x, y, s.inPixel (y * s.opw.toNat + x)⟩ ∈ clampedPixels u.fullRect u) ∧
      ∀ p ∈ clampedPixels u.fullRect u, ∃ x y v,
        x < s.opw.toNat ∧ y < s.oph.toNat ∧ s.inbuf[y * s.opw.toNat + x]? = some v ∧ p = ⟨x, y, mono v⟩

/-- 41_transfer.md R124: UPDATE is idempotent: repeated with the same operands and INBUF it leaves the state as the first
did. -/
def Obligations.UpdateIsIdempotent : Prop :=
  ∀ s t : State, GoodBuffer s → Memory.wf s.store = true → exec .update s = .next t → exec .update t = .next t

/-- 41_transfer.md R125: UPDATE never changes a bit no pixel of the buffer owns, a store byte at or above STORELEN, or a
pixel outside the clamped region. -/
def Obligations.UpdateKeepsPaddingAndOutside : Prop :=
  ∀ s t : State, s.valid = true → BufferInv s → exec .update s = .next t →
    (∀ a k, k < 8 →
      (∀ x y, x < s.width.toNat → y < s.height.toNat →
        a ≠ (s.pixelAddress x y).index ∨ k ≠ (s.pixelAddress x y).phys) →
      storeBit t a k = storeBit s a k) ∧
    (∀ a, s.storelen.toNat ≤ a → t.store.read a = s.store.read a) ∧
    ∀ x y, x < s.width.toNat → y < s.height.toNat →
      (x < s.opx.toNat ∨ s.opx.toNat + s.opw.toNat ≤ x ∨ y < s.opy.toNat ∨ s.opy.toNat + s.oph.toNat ≤ y) →
      pixel t x y = pixel s x y

/-- 60_exceptions.md R173: UPDATE, EXTRACT and ASVEC without a buffer give ERR_NO_BUFFER and nothing else; no other
command ever does. -/
def Obligations.NoBufferErrors : Prop :=
  (∀ s : State, s.valid = false →
    exec .update s = .next { s with code := 2, busy := false } ∧
    exec .extract s = .next { s with code := 2, busy := false } ∧
    exec .asvec s = .next { s with code := 2, busy := false }) ∧
  ∀ (s t : State) (i : Instr), exec i s = .next t → t.code = 2 → i = .update ∨ i = .extract ∨ i = .asvec

/-- 41_transfer.md R126 to R128: EXTRACT on a good Horizontal buffer: `lc` whole bytes of each of `hc` rows from the byte of
`rx` on, clamped to the row's end and to the last row; the copied rectangle is reported; nothing else changes. -/
def Obligations.ExtractHorizontalCopiesBytes : Prop :=
  ∀ s : State, s.valid = true → s.orient = .horizontal → GoodBuffer s →
    s.opx.toNat ≤ s.width.toNat → s.opy.toNat ≤ s.height.toNat →
    ∃ t lc hc, exec .extract s = .next t ∧
      lc = min (if s.opw.toNat = 0 then 0 else (s.opx.toNat + s.opw.toNat - 1) / 8 - s.opx.toNat / 8 + 1)
        (s.eightlen.toNat - s.opx.toNat / 8) ∧
      hc = min s.oph.toNat (s.height.toNat - s.opy.toNat) ∧
      t = { s with
        res0 := t.res0, res1 := t.res1, res2 := t.res2, res3 := t.res3, outbuf := t.outbuf, code := 0
        busy := false } ∧
      t.res0.toNat = s.opx.toNat / 8 ∧ t.res1 = s.opy ∧ t.res2.toNat = lc ∧ t.res3.toNat = hc ∧
      t.outbuf.length = lc * hc ∧
      ∀ r c, r < hc → c < lc →
        t.outbuf[r * lc + c]? = s.store.read (s.eightlen.toNat * (s.opy.toNat + r) + s.opx.toNat / 8 + c)

/-- 41_transfer.md R126 to R128: EXTRACT on a good Vertical buffer: `wc` columns of each of `lc` pages from the page of
`ry` on, page by page. -/
def Obligations.ExtractVerticalCopiesBytes : Prop :=
  ∀ s : State, s.valid = true → s.orient = .vertical → GoodBuffer s →
    s.opx.toNat ≤ s.width.toNat → s.opy.toNat ≤ s.height.toNat →
    ∃ t lc wc, exec .extract s = .next t ∧
      lc = min (if s.oph.toNat = 0 then 0 else (s.opy.toNat + s.oph.toNat - 1) / 8 - s.opy.toNat / 8 + 1)
        (s.eightlen.toNat - s.opy.toNat / 8) ∧
      wc = min s.opw.toNat (s.width.toNat - s.opx.toNat) ∧
      t = { s with
        res0 := t.res0, res1 := t.res1, res2 := t.res2, res3 := t.res3, outbuf := t.outbuf, code := 0
        busy := false } ∧
      t.res0 = s.opx ∧ t.res1.toNat = s.opy.toNat / 8 ∧ t.res2.toNat = wc ∧ t.res3.toNat = lc ∧
      t.outbuf.length = lc * wc ∧
      ∀ p c, p < lc → c < wc →
        t.outbuf[p * wc + c]? = s.store.read (s.width.toNat * (s.opy.toNat / 8 + p) + s.opx.toNat + c)

/-- 41_transfer.md R121, R127, 60_exceptions.md R177: a rectangle that starts strictly beyond an edge is no error: UPDATE
of the right length changes nothing and EXTRACT returns no byte and the zero rectangle. -/
def Obligations.OutsideRectanglesAreNoOps : Prop :=
  ∀ s : State, s.valid = true → (s.width.toNat < s.opx.toNat ∨ s.height.toNat < s.opy.toNat) →
    (s.inbuf.length = s.opw.toNat * s.oph.toNat →
      exec .update s = .next { s with code := 0, busy := false }) ∧
    exec .extract s = .next
      { s with outbuf := [], res0 := 0, res1 := 0, res2 := 0, res3 := 0, code := 0, busy := false }

/-- 41_transfer.md R130: an EXTRACT that is not the no-op: its span lies within EIGHTLEN, its other side within the other
dimension, every address it reads is below STORELEN, and OUTBUF has `plen * olen` bytes, at most STORELEN. -/
def Obligations.ExtractStaysInStore : Prop :=
  ∀ s : State, s.valid = true → BufferInv s → s.rectOperand.outside s = false →
    (computePart s.rectOperand s).start ≤ s.eightlen.toNat ∧
    (computePart s.rectOperand s).start + (computePart s.rectOperand s).plen ≤ s.eightlen.toNat ∧
    (computePart s.rectOperand s).other + (computePart s.rectOperand s).olen ≤ otherExtent s ∧
    (∀ a ∈ copyAddresses (computePart s.rectOperand s) s, a < s.storelen.toNat) ∧
    (computePart s.rectOperand s).plen * (computePart s.rectOperand s).olen ≤ s.storelen.toNat ∧
    ∀ t, exec .extract s = .next t →
      t.outbuf.length = (computePart s.rectOperand s).plen * (computePart s.rectOperand s).olen

/-- 41_transfer.md R132: every requested pixel inside the buffer lies in a copied byte, which is the byte of OUTBUF that
the returned rectangle says, in both orientations. -/
def Obligations.ExtractCoversTheRequest : Prop :=
  ∀ (s t : State) (x y : Nat), s.valid = true → GoodBuffer s → s.rectOperand.outside s = false →
    exec .extract s = .next t →
    s.opx.toNat ≤ x → x < s.opx.toNat + s.opw.toNat → x < s.width.toNat →
    s.opy.toNat ≤ y → y < s.opy.toNat + s.oph.toNat → y < s.height.toNat →
    ∃ r c,
      (s.orient = .horizontal → c < t.res2.toNat ∧ r < t.res3.toNat ∧
        t.res0.toNat + c = x / 8 ∧ t.res1.toNat + r = y) ∧
      (s.orient = .vertical → c < t.res2.toNat ∧ r < t.res3.toNat ∧
        t.res0.toNat + c = x ∧ t.res1.toNat + r = y / 8) ∧
      t.outbuf[r * t.res2.toNat + c]? = s.store.read (s.pixelAddress x y).index

/-- 41_transfer.md R131, 20_memory.md R58: ASVEC without a buffer fails with ERR_NO_BUFFER; on a good buffer it returns
store bytes 0 to STORELEN - 1 in address order. Nothing else changes. -/
def Obligations.AsvecReturnsTheStore : Prop :=
  decode 0x00000009#32 = .ok .asvec ∧
  (∀ s : State, s.valid = false → exec .asvec s = .next { s with code := 2, busy := false }) ∧
  ∀ s : State, s.valid = true → GoodBuffer s →
    ∃ t, exec .asvec s = .next t ∧
      t = { s with outbuf := t.outbuf, code := 0, busy := false } ∧
      t.outbuf.length = s.storelen.toNat ∧
      ∀ a < s.storelen.toNat, t.outbuf[a]? = s.store.read a

/-- 41_transfer.md R133: EXTRACT and ASVEC change no store byte and no configuration register, and a reader that follows
another returns the bytes it returns without it. -/
def Obligations.ReadersChangeNothingTheyRead : Prop :=
  ∀ (s t u : State) (i j : Instr), (i = .extract ∨ i = .asvec) → (j = .extract ∨ j = .asvec) →
    exec i s = .next t → exec j s = .next u →
    t.store = s.store ∧ t.valid = s.valid ∧ t.orient = s.orient ∧ t.bitord = s.bitord ∧ t.width = s.width ∧
      t.height = s.height ∧ t.eightlen = s.eightlen ∧ t.storelen = s.storelen ∧
      ∃ u', exec j t = .next u' ∧ u'.outbuf = u.outbuf
end

