-- ==== Sys2Proof/Laws/Addressing.lean ====
section
/-! SUPPORT. The arithmetic of bit addressing: the eight-length covers its extent, a pixel inside a buffer of the right
stride has its byte below the required length, two pixels never share a bit, and the clamped span stays inside. -/

namespace Sys2Proof.Machine

theorem eightLength_pos (n : Nat) : 1 ≤ eightLength n := by
  unfold eightLength
  split
  · omega
  · split <;> omega

theorem le_mul_eightLength (n : Nat) : n ≤ 8 * eightLength n := by
  unfold eightLength
  split
  · omega
  · split <;> omega

theorem div_lt_eightLength {x n : Nat} (h : x < n) : x / 8 < eightLength n := by
  have := le_mul_eightLength n
  omega

/-- A 32-bit extent has an eight-length of at most 2^29 (40_calculator.md R101). -/
theorem eightLength_le (n : Nat) (hn : n < 2 ^ 32) : eightLength n ≤ 2 ^ 29 := by
  unfold eightLength
  split
  · omega
  · split <;> omega

/-- The start of a span whose offset lies within the extent is within the eight-length (41_transfer.md R130). -/
theorem div_le_eightLength {x n : Nat} (h : x ≤ n) : x / 8 ≤ eightLength n := by
  have := le_mul_eightLength n
  omega

@[simp] theorem bitAddress_phys_lt (o : Orientation) (x y s : Nat) : (bitAddress o x y s).phys < 8 := by
  cases o <;> simp only [bitAddress] <;> omega

/-- A row (or page) index below `n` and an offset below the stride give an index below `n` strides. -/
theorem mul_add_lt {s r n c : Nat} (hr : r < n) (hc : c < s) : s * r + c < s * n := by
  have h : s * (r + 1) ≤ s * n := Nat.mul_le_mul_left s hr
  have h' : s * (r + 1) = s * r + s := Nat.mul_succ s r
  omega

/-- Two indices of the same stride and with offsets below it agree only when both parts do. -/
theorem mul_add_inj {s r r' c c' : Nat} (hc : c < s) (hc' : c' < s) (h : s * r + c = s * r' + c') :
    r = r' ∧ c = c' := by
  have hs : 0 < s := by omega
  have h1 : (s * r + c) / s = r := by
    rw [Nat.mul_add_div hs, Nat.div_eq_of_lt hc, Nat.add_zero]
  have h2 : (s * r' + c') / s = r' := by
    rw [Nat.mul_add_div hs, Nat.div_eq_of_lt hc', Nat.add_zero]
  have hr : r = r' := by rw [← h1, ← h2, h]
  subst hr
  exact ⟨rfl, by omega⟩

/-- The stride of a buffer of that orientation and size (40_calculator.md R115). -/
def strideOf (o : Orientation) (w : Nat) : Nat :=
  match o with
  | .horizontal => eightLength w
  | .vertical => w

/-- A pixel inside a buffer has its byte below the required length (40_calculator.md R109). -/
theorem bitAddress_index_lt (o : Orientation) {x y w h : Nat} (hx : x < w) (hy : y < h) :
    (bitAddress o x y (strideOf o w)).index < required o w h := by
  cases o with
  | horizontal => exact mul_add_lt hy (div_lt_eightLength hx)
  | vertical =>
    have := mul_add_lt (s := w) (div_lt_eightLength hy) hx
    simpa [bitAddress, byteIndexV, strideOf, required, packedDim, otherDim, Nat.mul_comm w] using this

/-- Two pixels of a buffer with the same byte and the same bit are one pixel (40_calculator.md R109). -/
theorem bitAddress_inj (o : Orientation) {x y x' y' w : Nat} (hx : x < w) (hx' : x' < w)
    (hi : (bitAddress o x y (strideOf o w)).index = (bitAddress o x' y' (strideOf o w)).index)
    (hp : (bitAddress o x y (strideOf o w)).phys = (bitAddress o x' y' (strideOf o w)).phys) :
    x = x' ∧ y = y' := by
  cases o with
  | horizontal =>
    obtain ⟨h1, h2⟩ := mul_add_inj (div_lt_eightLength hx) (div_lt_eightLength hx') hi
    simp only [bitAddress] at hp
    omega
  | vertical =>
    obtain ⟨h1, h2⟩ := mul_add_inj hx hx' hi
    simp only [bitAddress] at hp
    omega

/-- The number a one-hot mask is. -/
theorem maskOf_toNat {k : Nat} (h : k < 8) : (maskOf k).toNat = 2 ^ k := by
  rcases (show k = 0 ∨ k = 1 ∨ k = 2 ∨ k = 3 ∨ k = 4 ∨ k = 5 ∨ k = 6 ∨ k = 7 by omega) with
    hk | hk | hk | hk | hk | hk | hk | hk <;> subst hk <;> rfl

/-- Bit `j` of the mask of bit `k`. -/
theorem maskOf_getLsbD {j k : Nat} (hk : k < 8) : (maskOf k).getLsbD j = decide (j = k) := by
  simp only [maskOf, BitVec.getLsbD_shiftLeft, BitVec.getLsbD_one]
  by_cases h : j = k
  · subst h; simp [hk]
  · by_cases h' : j < k
    · simp [h, h']
    · have : j - k ≠ 0 := by omega
      simp [h, this]

end Sys2Proof.Machine
end

