-- ==== Sys2Proof/Laws/Memory.lean ====
section
/-! SUPPORT. The store: a read after a write, the cells a write leaves, and that every operation keeps the canonical form. -/

namespace Sys2Proof.Machine

@[simp] theorem Memory.read_nil (a : Nat) : Memory.read [] a = none := rfl

@[simp] theorem Memory.read_write_same (m : Memory) (a : Nat) (v : Byte) :
    Memory.read (Memory.write m a v) a = some v := by
  induction m with
  | nil => simp [Memory.write, Memory.read]
  | cons c m ih =>
    obtain ⟨b, w⟩ := c
    by_cases h1 : a < b
    · simp [Memory.write, Memory.read, h1]
    · by_cases h2 : a = b
      · simp [Memory.write, Memory.read, h2]
      · simp [Memory.write, Memory.read, h1, h2, ih]

@[simp] theorem Memory.read_write_other (m : Memory) {a b : Nat} (v : Byte) (h : b ≠ a) :
    Memory.read (Memory.write m a v) b = Memory.read m b := by
  induction m with
  | nil => simp [Memory.write, Memory.read, h]
  | cons c m ih =>
    obtain ⟨d, w⟩ := c
    by_cases h1 : a < d
    · simp [Memory.write, Memory.read, h1, h]
    · by_cases h2 : a = d
      · subst h2
        simp [Memory.write, Memory.read, h]
      · simp [Memory.write, Memory.read, h1, h2, ih]

theorem Memory.read_write (m : Memory) (a b : Nat) (v : Byte) :
    Memory.read (Memory.write m a v) b = if b = a then some v else Memory.read m b := by
  by_cases h : b = a
  · simp [h]
  · simp [h]

/-- The cells after a write are the written one and old ones. -/
theorem Memory.mem_write {m : Memory} {a : Nat} {v : Byte} {c : Host.Cell}
    (h : c ∈ Memory.write m a v) : c = (a, v) ∨ c ∈ m := by
  induction m with
  | nil => simpa [Memory.write] using h
  | cons d m ih =>
    obtain ⟨b, w⟩ := d
    by_cases h1 : a < b
    · simpa [Memory.write, h1] using h
    · by_cases h2 : a = b
      · simp [Memory.write, h2] at h
        rcases h with h | h
        · exact .inl (by rw [h, h2])
        · exact .inr (by simp [h])
      · simp [Memory.write, h1, h2] at h
        rcases h with h | h
        · exact .inr (by simp [h])
        · rcases ih h with h | h
          · exact .inl h
          · exact .inr (by simp [h])

/-- The canonical form, one cell at a time. -/
theorem Memory.wf_cons (a : Nat) (v : Byte) (m : Memory) :
    Memory.wf ((a, v) :: m) = true ↔ (∀ c, m.head? = some c → a < c.1) ∧ Memory.wf m = true := by
  cases m with
  | nil => simp [Memory.wf]
  | cons c m =>
    obtain ⟨b, w⟩ := c
    simp [Memory.wf]

theorem Memory.head_write (m : Memory) (a : Nat) (v : Byte) {b : Nat} (hb : b < a)
    (hm : ∀ c, m.head? = some c → b < c.1) :
    ∀ c, (Memory.write m a v).head? = some c → b < c.1 := by
  intro c hc
  cases m with
  | nil =>
    simp [Memory.write] at hc
    simp [← hc, hb]
  | cons d m =>
    obtain ⟨e, w⟩ := d
    have he : b < e := hm (e, w) rfl
    by_cases h1 : a < e
    · simp [Memory.write, h1] at hc
      simp [← hc, hb]
    · by_cases h2 : a = e
      · simp [Memory.write, h2] at hc
        simp [← hc, he]
      · simp [Memory.write, h1, h2] at hc
        simp [← hc, he]

/-- A write keeps the canonical form. -/
theorem Memory.wf_write {m : Memory} (a : Nat) (v : Byte) (h : Memory.wf m = true) :
    Memory.wf (Memory.write m a v) = true := by
  induction m with
  | nil => rfl
  | cons c m ih =>
    obtain ⟨b, w⟩ := c
    have hb := (Memory.wf_cons b w m).1 h
    by_cases h1 : a < b
    · simp only [Memory.write, h1, if_true]
      exact (Memory.wf_cons a v _).2 ⟨fun c hc => by simp at hc; simp [← hc, h1], h⟩
    · by_cases h2 : a = b
      · subst h2
        simp only [Memory.write, h1, if_true, if_false]
        exact (Memory.wf_cons a v m).2 hb
      · simp only [Memory.write, h1, h2, if_false]
        exact (Memory.wf_cons b w _).2 ⟨Memory.head_write m a v (by omega) hb.1, ih hb.2⟩

/-- In the canonical form no cell lies at or below the head's lower bound. -/
theorem Memory.read_eq_none_of_lt {m : Memory} (h : Memory.wf m = true) {a : Nat}
    (ha : ∀ c, m.head? = some c → a < c.1) : Memory.read m a = none := by
  induction m generalizing a with
  | nil => rfl
  | cons c m ih =>
    obtain ⟨b, w⟩ := c
    have hb := (Memory.wf_cons b w m).1 h
    have hab : a < b := ha (b, w) rfl
    have hne : a ≠ b := by omega
    simp only [Memory.read, hne, if_false]
    exact ih hb.2 fun c hc => by have := hb.1 c hc; omega

/-- Two canonical stores that read alike are the same data. -/
theorem Memory.ext_of_wf {m m' : Memory} (h : Memory.wf m = true) (h' : Memory.wf m' = true)
    (hr : ∀ a, Memory.read m a = Memory.read m' a) : m = m' := by
  induction m generalizing m' with
  | nil =>
    cases m' with
    | nil => rfl
    | cons c m' =>
      have := hr c.1
      simp [Memory.read] at this
  | cons c m ih =>
    obtain ⟨b, w⟩ := c
    cases m' with
    | nil =>
      have := hr b
      simp [Memory.read] at this
    | cons c' m' =>
      obtain ⟨b', w'⟩ := c'
      have hb := (Memory.wf_cons b w m).1 h
      have hb' := (Memory.wf_cons b' w' m').1 h'
      have lt_absurd : ∀ {x y : Nat} {u u' : Byte} {n n' : Memory}, x < y →
          Memory.wf ((y, u') :: n') = true →
          (∀ a, Memory.read ((x, u) :: n) a = Memory.read ((y, u') :: n') a) → False := by
        intro x y u u' n n' hxy hw hre
        have h1 := hre x
        rw [Memory.read_eq_none_of_lt hw (fun c hc => by simp at hc; simp [← hc, hxy])] at h1
        simp [Memory.read] at h1
      have hbb : b = b' := by
        rcases Nat.lt_trichotomy b b' with hlt | heq | hgt
        · exact (lt_absurd hlt h' hr).elim
        · exact heq
        · exact (lt_absurd hgt h fun a => (hr a).symm).elim
      subst hbb
      have hww : w = w' := by
        have := hr b
        simpa [Memory.read] using this
      subst hww
      have hmm : m = m' := by
        refine ih hb.2 hb'.2 fun a => ?_
        by_cases hab : a = b
        · subst hab
          rw [Memory.read_eq_none_of_lt hb.2 hb.1, Memory.read_eq_none_of_lt hb'.2 hb'.1]
        · have := hr a
          simpa [Memory.read, hab] using this
      rw [hmm]

/-- Writing the byte a place already holds changes nothing. -/
theorem Memory.write_read_self {m : Memory} (h : Memory.wf m = true) {a : Nat} {v : Byte}
    (hr : Memory.read m a = some v) : Memory.write m a v = m := by
  refine Memory.ext_of_wf (Memory.wf_write a v h) h fun b => ?_
  rw [Memory.read_write]
  by_cases hb : b = a
  · simp [hb, hr]
  · simp [hb]

end Sys2Proof.Machine
end

