-- ==== Sys2Proof/Laws/State.lean ====
section
/-! SUPPORT. What each named update of State does to each field, true by rfl, so that no proof unfolds a record update. -/

namespace Sys2Proof.Machine

section
variable (s : State) (c : Code)

@[simp] theorem State.finish_cmd : (s.finish c).cmd = s.cmd := rfl
@[simp] theorem State.finish_pending : (s.finish c).pending = s.pending := rfl
@[simp] theorem State.finish_code : (s.finish c).code = codeBits c := rfl
@[simp] theorem State.finish_busy : (s.finish c).busy = false := rfl
@[simp] theorem State.finish_opx : (s.finish c).opx = s.opx := rfl
@[simp] theorem State.finish_opy : (s.finish c).opy = s.opy := rfl
@[simp] theorem State.finish_opw : (s.finish c).opw = s.opw := rfl
@[simp] theorem State.finish_oph : (s.finish c).oph = s.oph := rfl
@[simp] theorem State.finish_res0 : (s.finish c).res0 = s.res0 := rfl
@[simp] theorem State.finish_res1 : (s.finish c).res1 = s.res1 := rfl
@[simp] theorem State.finish_res2 : (s.finish c).res2 = s.res2 := rfl
@[simp] theorem State.finish_res3 : (s.finish c).res3 = s.res3 := rfl
@[simp] theorem State.finish_valid : (s.finish c).valid = s.valid := rfl
@[simp] theorem State.finish_orient : (s.finish c).orient = s.orient := rfl
@[simp] theorem State.finish_bitord : (s.finish c).bitord = s.bitord := rfl
@[simp] theorem State.finish_width : (s.finish c).width = s.width := rfl
@[simp] theorem State.finish_height : (s.finish c).height = s.height := rfl
@[simp] theorem State.finish_eightlen : (s.finish c).eightlen = s.eightlen := rfl
@[simp] theorem State.finish_storelen : (s.finish c).storelen = s.storelen := rfl
@[simp] theorem State.finish_inbuf : (s.finish c).inbuf = s.inbuf := rfl
@[simp] theorem State.finish_outbuf : (s.finish c).outbuf = s.outbuf := rfl
@[simp] theorem State.finish_store : (s.finish c).store = s.store := rfl
@[simp] theorem State.finish_hazard : (s.finish c).hazard = s.hazard := rfl
@[simp] theorem State.finish_cfg : (s.finish c).cfg = s.cfg := rfl
@[simp] theorem State.finish_schedule : (s.finish c).schedule = s.schedule := rfl
@[simp] theorem State.finish_observed : (s.finish c).observed = s.observed := rfl

end

section
variable (s : State) (m : Memory)

@[simp] theorem State.setStore_cmd : (s.setStore m).cmd = s.cmd := rfl
@[simp] theorem State.setStore_pending : (s.setStore m).pending = s.pending := rfl
@[simp] theorem State.setStore_code : (s.setStore m).code = s.code := rfl
@[simp] theorem State.setStore_busy : (s.setStore m).busy = s.busy := rfl
@[simp] theorem State.setStore_opx : (s.setStore m).opx = s.opx := rfl
@[simp] theorem State.setStore_opy : (s.setStore m).opy = s.opy := rfl
@[simp] theorem State.setStore_opw : (s.setStore m).opw = s.opw := rfl
@[simp] theorem State.setStore_oph : (s.setStore m).oph = s.oph := rfl
@[simp] theorem State.setStore_res0 : (s.setStore m).res0 = s.res0 := rfl
@[simp] theorem State.setStore_res1 : (s.setStore m).res1 = s.res1 := rfl
@[simp] theorem State.setStore_res2 : (s.setStore m).res2 = s.res2 := rfl
@[simp] theorem State.setStore_res3 : (s.setStore m).res3 = s.res3 := rfl
@[simp] theorem State.setStore_valid : (s.setStore m).valid = s.valid := rfl
@[simp] theorem State.setStore_orient : (s.setStore m).orient = s.orient := rfl
@[simp] theorem State.setStore_bitord : (s.setStore m).bitord = s.bitord := rfl
@[simp] theorem State.setStore_width : (s.setStore m).width = s.width := rfl
@[simp] theorem State.setStore_height : (s.setStore m).height = s.height := rfl
@[simp] theorem State.setStore_eightlen : (s.setStore m).eightlen = s.eightlen := rfl
@[simp] theorem State.setStore_storelen : (s.setStore m).storelen = s.storelen := rfl
@[simp] theorem State.setStore_inbuf : (s.setStore m).inbuf = s.inbuf := rfl
@[simp] theorem State.setStore_outbuf : (s.setStore m).outbuf = s.outbuf := rfl
@[simp] theorem State.setStore_store : (s.setStore m).store = m := rfl
@[simp] theorem State.setStore_hazard : (s.setStore m).hazard = s.hazard := rfl
@[simp] theorem State.setStore_cfg : (s.setStore m).cfg = s.cfg := rfl
@[simp] theorem State.setStore_schedule : (s.setStore m).schedule = s.schedule := rfl
@[simp] theorem State.setStore_observed : (s.setStore m).observed = s.observed := rfl

end

section
variable (s : State) (a b c d : Nat)

@[simp] theorem State.setRes_cmd : (s.setRes a b c d).cmd = s.cmd := rfl
@[simp] theorem State.setRes_pending : (s.setRes a b c d).pending = s.pending := rfl
@[simp] theorem State.setRes_code : (s.setRes a b c d).code = s.code := rfl
@[simp] theorem State.setRes_busy : (s.setRes a b c d).busy = s.busy := rfl
@[simp] theorem State.setRes_opx : (s.setRes a b c d).opx = s.opx := rfl
@[simp] theorem State.setRes_opy : (s.setRes a b c d).opy = s.opy := rfl
@[simp] theorem State.setRes_opw : (s.setRes a b c d).opw = s.opw := rfl
@[simp] theorem State.setRes_oph : (s.setRes a b c d).oph = s.oph := rfl
@[simp] theorem State.setRes_res0 : (s.setRes a b c d).res0 = BitVec.ofNat 32 a := rfl
@[simp] theorem State.setRes_res1 : (s.setRes a b c d).res1 = BitVec.ofNat 32 b := rfl
@[simp] theorem State.setRes_res2 : (s.setRes a b c d).res2 = BitVec.ofNat 32 c := rfl
@[simp] theorem State.setRes_res3 : (s.setRes a b c d).res3 = BitVec.ofNat 32 d := rfl
@[simp] theorem State.setRes_valid : (s.setRes a b c d).valid = s.valid := rfl
@[simp] theorem State.setRes_orient : (s.setRes a b c d).orient = s.orient := rfl
@[simp] theorem State.setRes_bitord : (s.setRes a b c d).bitord = s.bitord := rfl
@[simp] theorem State.setRes_width : (s.setRes a b c d).width = s.width := rfl
@[simp] theorem State.setRes_height : (s.setRes a b c d).height = s.height := rfl
@[simp] theorem State.setRes_eightlen : (s.setRes a b c d).eightlen = s.eightlen := rfl
@[simp] theorem State.setRes_storelen : (s.setRes a b c d).storelen = s.storelen := rfl
@[simp] theorem State.setRes_inbuf : (s.setRes a b c d).inbuf = s.inbuf := rfl
@[simp] theorem State.setRes_outbuf : (s.setRes a b c d).outbuf = s.outbuf := rfl
@[simp] theorem State.setRes_store : (s.setRes a b c d).store = s.store := rfl
@[simp] theorem State.setRes_hazard : (s.setRes a b c d).hazard = s.hazard := rfl
@[simp] theorem State.setRes_cfg : (s.setRes a b c d).cfg = s.cfg := rfl
@[simp] theorem State.setRes_schedule : (s.setRes a b c d).schedule = s.schedule := rfl
@[simp] theorem State.setRes_observed : (s.setRes a b c d).observed = s.observed := rfl

end

section
variable (s : State) (bytes : List Byte)

@[simp] theorem State.setOutbuf_cmd : (s.setOutbuf bytes).cmd = s.cmd := rfl
@[simp] theorem State.setOutbuf_pending : (s.setOutbuf bytes).pending = s.pending := rfl
@[simp] theorem State.setOutbuf_code : (s.setOutbuf bytes).code = s.code := rfl
@[simp] theorem State.setOutbuf_busy : (s.setOutbuf bytes).busy = s.busy := rfl
@[simp] theorem State.setOutbuf_opx : (s.setOutbuf bytes).opx = s.opx := rfl
@[simp] theorem State.setOutbuf_opy : (s.setOutbuf bytes).opy = s.opy := rfl
@[simp] theorem State.setOutbuf_opw : (s.setOutbuf bytes).opw = s.opw := rfl
@[simp] theorem State.setOutbuf_oph : (s.setOutbuf bytes).oph = s.oph := rfl
@[simp] theorem State.setOutbuf_res0 : (s.setOutbuf bytes).res0 = s.res0 := rfl
@[simp] theorem State.setOutbuf_res1 : (s.setOutbuf bytes).res1 = s.res1 := rfl
@[simp] theorem State.setOutbuf_res2 : (s.setOutbuf bytes).res2 = s.res2 := rfl
@[simp] theorem State.setOutbuf_res3 : (s.setOutbuf bytes).res3 = s.res3 := rfl
@[simp] theorem State.setOutbuf_valid : (s.setOutbuf bytes).valid = s.valid := rfl
@[simp] theorem State.setOutbuf_orient : (s.setOutbuf bytes).orient = s.orient := rfl
@[simp] theorem State.setOutbuf_bitord : (s.setOutbuf bytes).bitord = s.bitord := rfl
@[simp] theorem State.setOutbuf_width : (s.setOutbuf bytes).width = s.width := rfl
@[simp] theorem State.setOutbuf_height : (s.setOutbuf bytes).height = s.height := rfl
@[simp] theorem State.setOutbuf_eightlen : (s.setOutbuf bytes).eightlen = s.eightlen := rfl
@[simp] theorem State.setOutbuf_storelen : (s.setOutbuf bytes).storelen = s.storelen := rfl
@[simp] theorem State.setOutbuf_inbuf : (s.setOutbuf bytes).inbuf = s.inbuf := rfl
@[simp] theorem State.setOutbuf_outbuf : (s.setOutbuf bytes).outbuf = bytes := rfl
@[simp] theorem State.setOutbuf_store : (s.setOutbuf bytes).store = s.store := rfl
@[simp] theorem State.setOutbuf_hazard : (s.setOutbuf bytes).hazard = s.hazard := rfl
@[simp] theorem State.setOutbuf_cfg : (s.setOutbuf bytes).cfg = s.cfg := rfl
@[simp] theorem State.setOutbuf_schedule : (s.setOutbuf bytes).schedule = s.schedule := rfl
@[simp] theorem State.setOutbuf_observed : (s.setOutbuf bytes).observed = s.observed := rfl

end

section
variable (s : State) (o : Orientation) (w h : Word) (l : Nat)

@[simp] theorem State.install_cmd : (s.install o w h l).cmd = s.cmd := rfl
@[simp] theorem State.install_pending : (s.install o w h l).pending = s.pending := rfl
@[simp] theorem State.install_code : (s.install o w h l).code = s.code := rfl
@[simp] theorem State.install_busy : (s.install o w h l).busy = s.busy := rfl
@[simp] theorem State.install_opx : (s.install o w h l).opx = s.opx := rfl
@[simp] theorem State.install_opy : (s.install o w h l).opy = s.opy := rfl
@[simp] theorem State.install_opw : (s.install o w h l).opw = s.opw := rfl
@[simp] theorem State.install_oph : (s.install o w h l).oph = s.oph := rfl
@[simp] theorem State.install_res0 : (s.install o w h l).res0 = s.res0 := rfl
@[simp] theorem State.install_res1 : (s.install o w h l).res1 = s.res1 := rfl
@[simp] theorem State.install_res2 : (s.install o w h l).res2 = s.res2 := rfl
@[simp] theorem State.install_res3 : (s.install o w h l).res3 = s.res3 := rfl
@[simp] theorem State.install_valid : (s.install o w h l).valid = true := rfl
@[simp] theorem State.install_orient : (s.install o w h l).orient = o := rfl
@[simp] theorem State.install_bitord : (s.install o w h l).bitord = bitOrderOf o := rfl
@[simp] theorem State.install_width : (s.install o w h l).width = w := rfl
@[simp] theorem State.install_height : (s.install o w h l).height = h := rfl
@[simp] theorem State.install_eightlen : (s.install o w h l).eightlen = BitVec.ofNat 32 (eightLength (packedDim o w.toNat h.toNat)) := rfl
@[simp] theorem State.install_storelen : (s.install o w h l).storelen = BitVec.ofNat 32 l := rfl
@[simp] theorem State.install_inbuf : (s.install o w h l).inbuf = s.inbuf := rfl
@[simp] theorem State.install_outbuf : (s.install o w h l).outbuf = s.outbuf := rfl
@[simp] theorem State.install_store : (s.install o w h l).store = s.store := rfl
@[simp] theorem State.install_hazard : (s.install o w h l).hazard = s.hazard := rfl
@[simp] theorem State.install_cfg : (s.install o w h l).cfg = s.cfg := rfl
@[simp] theorem State.install_schedule : (s.install o w h l).schedule = s.schedule := rfl
@[simp] theorem State.install_observed : (s.install o w h l).observed = s.observed := rfl

end

section
variable (s : State) (v : Word)

@[simp] theorem State.issue_cmd : (s.issue v).cmd = v := rfl
@[simp] theorem State.issue_pending : (s.issue v).pending = v := rfl
@[simp] theorem State.issue_code : (s.issue v).code = s.code := rfl
@[simp] theorem State.issue_busy : (s.issue v).busy = true := rfl
@[simp] theorem State.issue_opx : (s.issue v).opx = s.opx := rfl
@[simp] theorem State.issue_opy : (s.issue v).opy = s.opy := rfl
@[simp] theorem State.issue_opw : (s.issue v).opw = s.opw := rfl
@[simp] theorem State.issue_oph : (s.issue v).oph = s.oph := rfl
@[simp] theorem State.issue_res0 : (s.issue v).res0 = s.res0 := rfl
@[simp] theorem State.issue_res1 : (s.issue v).res1 = s.res1 := rfl
@[simp] theorem State.issue_res2 : (s.issue v).res2 = s.res2 := rfl
@[simp] theorem State.issue_res3 : (s.issue v).res3 = s.res3 := rfl
@[simp] theorem State.issue_valid : (s.issue v).valid = s.valid := rfl
@[simp] theorem State.issue_orient : (s.issue v).orient = s.orient := rfl
@[simp] theorem State.issue_bitord : (s.issue v).bitord = s.bitord := rfl
@[simp] theorem State.issue_width : (s.issue v).width = s.width := rfl
@[simp] theorem State.issue_height : (s.issue v).height = s.height := rfl
@[simp] theorem State.issue_eightlen : (s.issue v).eightlen = s.eightlen := rfl
@[simp] theorem State.issue_storelen : (s.issue v).storelen = s.storelen := rfl
@[simp] theorem State.issue_inbuf : (s.issue v).inbuf = s.inbuf := rfl
@[simp] theorem State.issue_outbuf : (s.issue v).outbuf = s.outbuf := rfl
@[simp] theorem State.issue_store : (s.issue v).store = s.store := rfl
@[simp] theorem State.issue_hazard : (s.issue v).hazard = s.hazard := rfl
@[simp] theorem State.issue_cfg : (s.issue v).cfg = s.cfg := rfl
@[simp] theorem State.issue_schedule : (s.issue v).schedule = s.schedule := rfl
@[simp] theorem State.issue_observed : (s.issue v).observed = s.observed := rfl

end

section
variable (s : State) (v : Word)

@[simp] theorem State.setOpx_cmd : (s.setOpx v).cmd = s.cmd := rfl
@[simp] theorem State.setOpx_pending : (s.setOpx v).pending = s.pending := rfl
@[simp] theorem State.setOpx_code : (s.setOpx v).code = s.code := rfl
@[simp] theorem State.setOpx_busy : (s.setOpx v).busy = s.busy := rfl
@[simp] theorem State.setOpx_opx : (s.setOpx v).opx = v := rfl
@[simp] theorem State.setOpx_opy : (s.setOpx v).opy = s.opy := rfl
@[simp] theorem State.setOpx_opw : (s.setOpx v).opw = s.opw := rfl
@[simp] theorem State.setOpx_oph : (s.setOpx v).oph = s.oph := rfl
@[simp] theorem State.setOpx_res0 : (s.setOpx v).res0 = s.res0 := rfl
@[simp] theorem State.setOpx_res1 : (s.setOpx v).res1 = s.res1 := rfl
@[simp] theorem State.setOpx_res2 : (s.setOpx v).res2 = s.res2 := rfl
@[simp] theorem State.setOpx_res3 : (s.setOpx v).res3 = s.res3 := rfl
@[simp] theorem State.setOpx_valid : (s.setOpx v).valid = s.valid := rfl
@[simp] theorem State.setOpx_orient : (s.setOpx v).orient = s.orient := rfl
@[simp] theorem State.setOpx_bitord : (s.setOpx v).bitord = s.bitord := rfl
@[simp] theorem State.setOpx_width : (s.setOpx v).width = s.width := rfl
@[simp] theorem State.setOpx_height : (s.setOpx v).height = s.height := rfl
@[simp] theorem State.setOpx_eightlen : (s.setOpx v).eightlen = s.eightlen := rfl
@[simp] theorem State.setOpx_storelen : (s.setOpx v).storelen = s.storelen := rfl
@[simp] theorem State.setOpx_inbuf : (s.setOpx v).inbuf = s.inbuf := rfl
@[simp] theorem State.setOpx_outbuf : (s.setOpx v).outbuf = s.outbuf := rfl
@[simp] theorem State.setOpx_store : (s.setOpx v).store = s.store := rfl
@[simp] theorem State.setOpx_hazard : (s.setOpx v).hazard = s.hazard := rfl
@[simp] theorem State.setOpx_cfg : (s.setOpx v).cfg = s.cfg := rfl
@[simp] theorem State.setOpx_schedule : (s.setOpx v).schedule = s.schedule := rfl
@[simp] theorem State.setOpx_observed : (s.setOpx v).observed = s.observed := rfl

end

section
variable (s : State) (v : Word)

@[simp] theorem State.setOpy_cmd : (s.setOpy v).cmd = s.cmd := rfl
@[simp] theorem State.setOpy_pending : (s.setOpy v).pending = s.pending := rfl
@[simp] theorem State.setOpy_code : (s.setOpy v).code = s.code := rfl
@[simp] theorem State.setOpy_busy : (s.setOpy v).busy = s.busy := rfl
@[simp] theorem State.setOpy_opx : (s.setOpy v).opx = s.opx := rfl
@[simp] theorem State.setOpy_opy : (s.setOpy v).opy = v := rfl
@[simp] theorem State.setOpy_opw : (s.setOpy v).opw = s.opw := rfl
@[simp] theorem State.setOpy_oph : (s.setOpy v).oph = s.oph := rfl
@[simp] theorem State.setOpy_res0 : (s.setOpy v).res0 = s.res0 := rfl
@[simp] theorem State.setOpy_res1 : (s.setOpy v).res1 = s.res1 := rfl
@[simp] theorem State.setOpy_res2 : (s.setOpy v).res2 = s.res2 := rfl
@[simp] theorem State.setOpy_res3 : (s.setOpy v).res3 = s.res3 := rfl
@[simp] theorem State.setOpy_valid : (s.setOpy v).valid = s.valid := rfl
@[simp] theorem State.setOpy_orient : (s.setOpy v).orient = s.orient := rfl
@[simp] theorem State.setOpy_bitord : (s.setOpy v).bitord = s.bitord := rfl
@[simp] theorem State.setOpy_width : (s.setOpy v).width = s.width := rfl
@[simp] theorem State.setOpy_height : (s.setOpy v).height = s.height := rfl
@[simp] theorem State.setOpy_eightlen : (s.setOpy v).eightlen = s.eightlen := rfl
@[simp] theorem State.setOpy_storelen : (s.setOpy v).storelen = s.storelen := rfl
@[simp] theorem State.setOpy_inbuf : (s.setOpy v).inbuf = s.inbuf := rfl
@[simp] theorem State.setOpy_outbuf : (s.setOpy v).outbuf = s.outbuf := rfl
@[simp] theorem State.setOpy_store : (s.setOpy v).store = s.store := rfl
@[simp] theorem State.setOpy_hazard : (s.setOpy v).hazard = s.hazard := rfl
@[simp] theorem State.setOpy_cfg : (s.setOpy v).cfg = s.cfg := rfl
@[simp] theorem State.setOpy_schedule : (s.setOpy v).schedule = s.schedule := rfl
@[simp] theorem State.setOpy_observed : (s.setOpy v).observed = s.observed := rfl

end

section
variable (s : State) (v : Word)

@[simp] theorem State.setOpw_cmd : (s.setOpw v).cmd = s.cmd := rfl
@[simp] theorem State.setOpw_pending : (s.setOpw v).pending = s.pending := rfl
@[simp] theorem State.setOpw_code : (s.setOpw v).code = s.code := rfl
@[simp] theorem State.setOpw_busy : (s.setOpw v).busy = s.busy := rfl
@[simp] theorem State.setOpw_opx : (s.setOpw v).opx = s.opx := rfl
@[simp] theorem State.setOpw_opy : (s.setOpw v).opy = s.opy := rfl
@[simp] theorem State.setOpw_opw : (s.setOpw v).opw = v := rfl
@[simp] theorem State.setOpw_oph : (s.setOpw v).oph = s.oph := rfl
@[simp] theorem State.setOpw_res0 : (s.setOpw v).res0 = s.res0 := rfl
@[simp] theorem State.setOpw_res1 : (s.setOpw v).res1 = s.res1 := rfl
@[simp] theorem State.setOpw_res2 : (s.setOpw v).res2 = s.res2 := rfl
@[simp] theorem State.setOpw_res3 : (s.setOpw v).res3 = s.res3 := rfl
@[simp] theorem State.setOpw_valid : (s.setOpw v).valid = s.valid := rfl
@[simp] theorem State.setOpw_orient : (s.setOpw v).orient = s.orient := rfl
@[simp] theorem State.setOpw_bitord : (s.setOpw v).bitord = s.bitord := rfl
@[simp] theorem State.setOpw_width : (s.setOpw v).width = s.width := rfl
@[simp] theorem State.setOpw_height : (s.setOpw v).height = s.height := rfl
@[simp] theorem State.setOpw_eightlen : (s.setOpw v).eightlen = s.eightlen := rfl
@[simp] theorem State.setOpw_storelen : (s.setOpw v).storelen = s.storelen := rfl
@[simp] theorem State.setOpw_inbuf : (s.setOpw v).inbuf = s.inbuf := rfl
@[simp] theorem State.setOpw_outbuf : (s.setOpw v).outbuf = s.outbuf := rfl
@[simp] theorem State.setOpw_store : (s.setOpw v).store = s.store := rfl
@[simp] theorem State.setOpw_hazard : (s.setOpw v).hazard = s.hazard := rfl
@[simp] theorem State.setOpw_cfg : (s.setOpw v).cfg = s.cfg := rfl
@[simp] theorem State.setOpw_schedule : (s.setOpw v).schedule = s.schedule := rfl
@[simp] theorem State.setOpw_observed : (s.setOpw v).observed = s.observed := rfl

end

section
variable (s : State) (v : Word)

@[simp] theorem State.setOph_cmd : (s.setOph v).cmd = s.cmd := rfl
@[simp] theorem State.setOph_pending : (s.setOph v).pending = s.pending := rfl
@[simp] theorem State.setOph_code : (s.setOph v).code = s.code := rfl
@[simp] theorem State.setOph_busy : (s.setOph v).busy = s.busy := rfl
@[simp] theorem State.setOph_opx : (s.setOph v).opx = s.opx := rfl
@[simp] theorem State.setOph_opy : (s.setOph v).opy = s.opy := rfl
@[simp] theorem State.setOph_opw : (s.setOph v).opw = s.opw := rfl
@[simp] theorem State.setOph_oph : (s.setOph v).oph = v := rfl
@[simp] theorem State.setOph_res0 : (s.setOph v).res0 = s.res0 := rfl
@[simp] theorem State.setOph_res1 : (s.setOph v).res1 = s.res1 := rfl
@[simp] theorem State.setOph_res2 : (s.setOph v).res2 = s.res2 := rfl
@[simp] theorem State.setOph_res3 : (s.setOph v).res3 = s.res3 := rfl
@[simp] theorem State.setOph_valid : (s.setOph v).valid = s.valid := rfl
@[simp] theorem State.setOph_orient : (s.setOph v).orient = s.orient := rfl
@[simp] theorem State.setOph_bitord : (s.setOph v).bitord = s.bitord := rfl
@[simp] theorem State.setOph_width : (s.setOph v).width = s.width := rfl
@[simp] theorem State.setOph_height : (s.setOph v).height = s.height := rfl
@[simp] theorem State.setOph_eightlen : (s.setOph v).eightlen = s.eightlen := rfl
@[simp] theorem State.setOph_storelen : (s.setOph v).storelen = s.storelen := rfl
@[simp] theorem State.setOph_inbuf : (s.setOph v).inbuf = s.inbuf := rfl
@[simp] theorem State.setOph_outbuf : (s.setOph v).outbuf = s.outbuf := rfl
@[simp] theorem State.setOph_store : (s.setOph v).store = s.store := rfl
@[simp] theorem State.setOph_hazard : (s.setOph v).hazard = s.hazard := rfl
@[simp] theorem State.setOph_cfg : (s.setOph v).cfg = s.cfg := rfl
@[simp] theorem State.setOph_schedule : (s.setOph v).schedule = s.schedule := rfl
@[simp] theorem State.setOph_observed : (s.setOph v).observed = s.observed := rfl

end

section
variable (s : State) (bytes : List Byte)

@[simp] theorem State.setInbuf_cmd : (s.setInbuf bytes).cmd = s.cmd := rfl
@[simp] theorem State.setInbuf_pending : (s.setInbuf bytes).pending = s.pending := rfl
@[simp] theorem State.setInbuf_code : (s.setInbuf bytes).code = s.code := rfl
@[simp] theorem State.setInbuf_busy : (s.setInbuf bytes).busy = s.busy := rfl
@[simp] theorem State.setInbuf_opx : (s.setInbuf bytes).opx = s.opx := rfl
@[simp] theorem State.setInbuf_opy : (s.setInbuf bytes).opy = s.opy := rfl
@[simp] theorem State.setInbuf_opw : (s.setInbuf bytes).opw = s.opw := rfl
@[simp] theorem State.setInbuf_oph : (s.setInbuf bytes).oph = s.oph := rfl
@[simp] theorem State.setInbuf_res0 : (s.setInbuf bytes).res0 = s.res0 := rfl
@[simp] theorem State.setInbuf_res1 : (s.setInbuf bytes).res1 = s.res1 := rfl
@[simp] theorem State.setInbuf_res2 : (s.setInbuf bytes).res2 = s.res2 := rfl
@[simp] theorem State.setInbuf_res3 : (s.setInbuf bytes).res3 = s.res3 := rfl
@[simp] theorem State.setInbuf_valid : (s.setInbuf bytes).valid = s.valid := rfl
@[simp] theorem State.setInbuf_orient : (s.setInbuf bytes).orient = s.orient := rfl
@[simp] theorem State.setInbuf_bitord : (s.setInbuf bytes).bitord = s.bitord := rfl
@[simp] theorem State.setInbuf_width : (s.setInbuf bytes).width = s.width := rfl
@[simp] theorem State.setInbuf_height : (s.setInbuf bytes).height = s.height := rfl
@[simp] theorem State.setInbuf_eightlen : (s.setInbuf bytes).eightlen = s.eightlen := rfl
@[simp] theorem State.setInbuf_storelen : (s.setInbuf bytes).storelen = s.storelen := rfl
@[simp] theorem State.setInbuf_inbuf : (s.setInbuf bytes).inbuf = bytes := rfl
@[simp] theorem State.setInbuf_outbuf : (s.setInbuf bytes).outbuf = s.outbuf := rfl
@[simp] theorem State.setInbuf_store : (s.setInbuf bytes).store = s.store := rfl
@[simp] theorem State.setInbuf_hazard : (s.setInbuf bytes).hazard = s.hazard := rfl
@[simp] theorem State.setInbuf_cfg : (s.setInbuf bytes).cfg = s.cfg := rfl
@[simp] theorem State.setInbuf_schedule : (s.setInbuf bytes).schedule = s.schedule := rfl
@[simp] theorem State.setInbuf_observed : (s.setInbuf bytes).observed = s.observed := rfl

end

section
variable (s : State) (info : HazardInfo)

@[simp] theorem State.raiseHazard_cmd : (s.raiseHazard info).cmd = s.cmd := rfl
@[simp] theorem State.raiseHazard_pending : (s.raiseHazard info).pending = s.pending := rfl
@[simp] theorem State.raiseHazard_code : (s.raiseHazard info).code = s.code := rfl
@[simp] theorem State.raiseHazard_busy : (s.raiseHazard info).busy = s.busy := rfl
@[simp] theorem State.raiseHazard_opx : (s.raiseHazard info).opx = s.opx := rfl
@[simp] theorem State.raiseHazard_opy : (s.raiseHazard info).opy = s.opy := rfl
@[simp] theorem State.raiseHazard_opw : (s.raiseHazard info).opw = s.opw := rfl
@[simp] theorem State.raiseHazard_oph : (s.raiseHazard info).oph = s.oph := rfl
@[simp] theorem State.raiseHazard_res0 : (s.raiseHazard info).res0 = s.res0 := rfl
@[simp] theorem State.raiseHazard_res1 : (s.raiseHazard info).res1 = s.res1 := rfl
@[simp] theorem State.raiseHazard_res2 : (s.raiseHazard info).res2 = s.res2 := rfl
@[simp] theorem State.raiseHazard_res3 : (s.raiseHazard info).res3 = s.res3 := rfl
@[simp] theorem State.raiseHazard_valid : (s.raiseHazard info).valid = s.valid := rfl
@[simp] theorem State.raiseHazard_orient : (s.raiseHazard info).orient = s.orient := rfl
@[simp] theorem State.raiseHazard_bitord : (s.raiseHazard info).bitord = s.bitord := rfl
@[simp] theorem State.raiseHazard_width : (s.raiseHazard info).width = s.width := rfl
@[simp] theorem State.raiseHazard_height : (s.raiseHazard info).height = s.height := rfl
@[simp] theorem State.raiseHazard_eightlen : (s.raiseHazard info).eightlen = s.eightlen := rfl
@[simp] theorem State.raiseHazard_storelen : (s.raiseHazard info).storelen = s.storelen := rfl
@[simp] theorem State.raiseHazard_inbuf : (s.raiseHazard info).inbuf = s.inbuf := rfl
@[simp] theorem State.raiseHazard_outbuf : (s.raiseHazard info).outbuf = s.outbuf := rfl
@[simp] theorem State.raiseHazard_store : (s.raiseHazard info).store = s.store := rfl
@[simp] theorem State.raiseHazard_hazard : (s.raiseHazard info).hazard = some info := rfl
@[simp] theorem State.raiseHazard_cfg : (s.raiseHazard info).cfg = s.cfg := rfl
@[simp] theorem State.raiseHazard_schedule : (s.raiseHazard info).schedule = s.schedule := rfl
@[simp] theorem State.raiseHazard_observed : (s.raiseHazard info).observed = s.observed := rfl

end

section
variable (s : State) (o : Observation)

@[simp] theorem State.observe_cmd : (s.observe o).cmd = s.cmd := rfl
@[simp] theorem State.observe_pending : (s.observe o).pending = s.pending := rfl
@[simp] theorem State.observe_code : (s.observe o).code = s.code := rfl
@[simp] theorem State.observe_busy : (s.observe o).busy = s.busy := rfl
@[simp] theorem State.observe_opx : (s.observe o).opx = s.opx := rfl
@[simp] theorem State.observe_opy : (s.observe o).opy = s.opy := rfl
@[simp] theorem State.observe_opw : (s.observe o).opw = s.opw := rfl
@[simp] theorem State.observe_oph : (s.observe o).oph = s.oph := rfl
@[simp] theorem State.observe_res0 : (s.observe o).res0 = s.res0 := rfl
@[simp] theorem State.observe_res1 : (s.observe o).res1 = s.res1 := rfl
@[simp] theorem State.observe_res2 : (s.observe o).res2 = s.res2 := rfl
@[simp] theorem State.observe_res3 : (s.observe o).res3 = s.res3 := rfl
@[simp] theorem State.observe_valid : (s.observe o).valid = s.valid := rfl
@[simp] theorem State.observe_orient : (s.observe o).orient = s.orient := rfl
@[simp] theorem State.observe_bitord : (s.observe o).bitord = s.bitord := rfl
@[simp] theorem State.observe_width : (s.observe o).width = s.width := rfl
@[simp] theorem State.observe_height : (s.observe o).height = s.height := rfl
@[simp] theorem State.observe_eightlen : (s.observe o).eightlen = s.eightlen := rfl
@[simp] theorem State.observe_storelen : (s.observe o).storelen = s.storelen := rfl
@[simp] theorem State.observe_inbuf : (s.observe o).inbuf = s.inbuf := rfl
@[simp] theorem State.observe_outbuf : (s.observe o).outbuf = s.outbuf := rfl
@[simp] theorem State.observe_store : (s.observe o).store = s.store := rfl
@[simp] theorem State.observe_hazard : (s.observe o).hazard = s.hazard := rfl
@[simp] theorem State.observe_cfg : (s.observe o).cfg = s.cfg := rfl
@[simp] theorem State.observe_schedule : (s.observe o).schedule = s.schedule := rfl
@[simp] theorem State.observe_observed : (s.observe o).observed = o :: s.observed := rfl

end

section
variable (s : State)

@[simp] theorem State.dropTurn_cmd : s.dropTurn.cmd = s.cmd := rfl
@[simp] theorem State.dropTurn_pending : s.dropTurn.pending = s.pending := rfl
@[simp] theorem State.dropTurn_code : s.dropTurn.code = s.code := rfl
@[simp] theorem State.dropTurn_busy : s.dropTurn.busy = s.busy := rfl
@[simp] theorem State.dropTurn_opx : s.dropTurn.opx = s.opx := rfl
@[simp] theorem State.dropTurn_opy : s.dropTurn.opy = s.opy := rfl
@[simp] theorem State.dropTurn_opw : s.dropTurn.opw = s.opw := rfl
@[simp] theorem State.dropTurn_oph : s.dropTurn.oph = s.oph := rfl
@[simp] theorem State.dropTurn_res0 : s.dropTurn.res0 = s.res0 := rfl
@[simp] theorem State.dropTurn_res1 : s.dropTurn.res1 = s.res1 := rfl
@[simp] theorem State.dropTurn_res2 : s.dropTurn.res2 = s.res2 := rfl
@[simp] theorem State.dropTurn_res3 : s.dropTurn.res3 = s.res3 := rfl
@[simp] theorem State.dropTurn_valid : s.dropTurn.valid = s.valid := rfl
@[simp] theorem State.dropTurn_orient : s.dropTurn.orient = s.orient := rfl
@[simp] theorem State.dropTurn_bitord : s.dropTurn.bitord = s.bitord := rfl
@[simp] theorem State.dropTurn_width : s.dropTurn.width = s.width := rfl
@[simp] theorem State.dropTurn_height : s.dropTurn.height = s.height := rfl
@[simp] theorem State.dropTurn_eightlen : s.dropTurn.eightlen = s.eightlen := rfl
@[simp] theorem State.dropTurn_storelen : s.dropTurn.storelen = s.storelen := rfl
@[simp] theorem State.dropTurn_inbuf : s.dropTurn.inbuf = s.inbuf := rfl
@[simp] theorem State.dropTurn_outbuf : s.dropTurn.outbuf = s.outbuf := rfl
@[simp] theorem State.dropTurn_store : s.dropTurn.store = s.store := rfl
@[simp] theorem State.dropTurn_hazard : s.dropTurn.hazard = s.hazard := rfl
@[simp] theorem State.dropTurn_cfg : s.dropTurn.cfg = s.cfg := rfl
@[simp] theorem State.dropTurn_schedule : s.dropTurn.schedule = s.schedule.tail := rfl
@[simp] theorem State.dropTurn_observed : s.dropTurn.observed = s.observed := rfl

end

section
variable (s : State) (v : Word)

@[simp] theorem State.place_cmd : (s.place v).cmd = v := rfl
@[simp] theorem State.place_pending : (s.place v).pending = v := rfl
@[simp] theorem State.place_code : (s.place v).code = s.code := rfl
@[simp] theorem State.place_busy : (s.place v).busy = true := rfl
@[simp] theorem State.place_opx : (s.place v).opx = s.opx := rfl
@[simp] theorem State.place_opy : (s.place v).opy = s.opy := rfl
@[simp] theorem State.place_opw : (s.place v).opw = s.opw := rfl
@[simp] theorem State.place_oph : (s.place v).oph = s.oph := rfl
@[simp] theorem State.place_res0 : (s.place v).res0 = s.res0 := rfl
@[simp] theorem State.place_res1 : (s.place v).res1 = s.res1 := rfl
@[simp] theorem State.place_res2 : (s.place v).res2 = s.res2 := rfl
@[simp] theorem State.place_res3 : (s.place v).res3 = s.res3 := rfl
@[simp] theorem State.place_valid : (s.place v).valid = s.valid := rfl
@[simp] theorem State.place_orient : (s.place v).orient = s.orient := rfl
@[simp] theorem State.place_bitord : (s.place v).bitord = s.bitord := rfl
@[simp] theorem State.place_width : (s.place v).width = s.width := rfl
@[simp] theorem State.place_height : (s.place v).height = s.height := rfl
@[simp] theorem State.place_eightlen : (s.place v).eightlen = s.eightlen := rfl
@[simp] theorem State.place_storelen : (s.place v).storelen = s.storelen := rfl
@[simp] theorem State.place_inbuf : (s.place v).inbuf = s.inbuf := rfl
@[simp] theorem State.place_outbuf : (s.place v).outbuf = s.outbuf := rfl
@[simp] theorem State.place_store : (s.place v).store = s.store := rfl
@[simp] theorem State.place_hazard : (s.place v).hazard = none := rfl
@[simp] theorem State.place_cfg : (s.place v).cfg = s.cfg := rfl
@[simp] theorem State.place_schedule : (s.place v).schedule = .engine :: s.schedule := rfl
@[simp] theorem State.place_observed : (s.place v).observed = s.observed := rfl

end

section
variable (s : State)

@[simp] theorem State.afterReset_cmd : s.afterReset.cmd = 0 := rfl
@[simp] theorem State.afterReset_pending : s.afterReset.pending = 0 := rfl
@[simp] theorem State.afterReset_code : s.afterReset.code = 0 := rfl
@[simp] theorem State.afterReset_busy : s.afterReset.busy = false := rfl
@[simp] theorem State.afterReset_opx : s.afterReset.opx = 0 := rfl
@[simp] theorem State.afterReset_opy : s.afterReset.opy = 0 := rfl
@[simp] theorem State.afterReset_opw : s.afterReset.opw = 0 := rfl
@[simp] theorem State.afterReset_oph : s.afterReset.oph = 0 := rfl
@[simp] theorem State.afterReset_res0 : s.afterReset.res0 = 0 := rfl
@[simp] theorem State.afterReset_res1 : s.afterReset.res1 = 0 := rfl
@[simp] theorem State.afterReset_res2 : s.afterReset.res2 = 0 := rfl
@[simp] theorem State.afterReset_res3 : s.afterReset.res3 = 0 := rfl
@[simp] theorem State.afterReset_valid : s.afterReset.valid = false := rfl
@[simp] theorem State.afterReset_orient : s.afterReset.orient = .horizontal := rfl
@[simp] theorem State.afterReset_bitord : s.afterReset.bitord = .msbFirst := rfl
@[simp] theorem State.afterReset_width : s.afterReset.width = 0 := rfl
@[simp] theorem State.afterReset_height : s.afterReset.height = 0 := rfl
@[simp] theorem State.afterReset_eightlen : s.afterReset.eightlen = 0 := rfl
@[simp] theorem State.afterReset_storelen : s.afterReset.storelen = 0 := rfl
@[simp] theorem State.afterReset_inbuf : s.afterReset.inbuf = [] := rfl
@[simp] theorem State.afterReset_outbuf : s.afterReset.outbuf = [] := rfl
@[simp] theorem State.afterReset_store : s.afterReset.store = [] := rfl
@[simp] theorem State.afterReset_hazard : s.afterReset.hazard = none := rfl
@[simp] theorem State.afterReset_cfg : s.afterReset.cfg = s.cfg := rfl
@[simp] theorem State.afterReset_schedule : s.afterReset.schedule = s.schedule := rfl
@[simp] theorem State.afterReset_observed : s.afterReset.observed = s.observed := rfl

end

end Sys2Proof.Machine
end

