-- ==== Sys2Proof/Laws/Ops.lean ====
section
/-! SUPPORT. What each shared operation can do, said once: when it answers, what it answers, and what it leaves alone. -/

namespace Sys2Proof.Machine

open Sys2Proof.Safety

theorem State.inStore_iff (s : State) (a : Nat) :
    s.inStore a = true ↔ a < s.storelen.toNat ∧ a < s.cfg.storeCap.val := by
  simp [State.inStore]

@[simp] theorem State.inStore_setStore (m : Memory) (s : State) (a : Nat) :
    (s.setStore m).inStore a = s.inStore a := rfl

@[simp] theorem State.setStore_setStore (m m' : Memory) (s : State) :
    (s.setStore m).setStore m' = s.setStore m' := rfl

@[simp] theorem State.setStore_self (s : State) : s.setStore s.store = s := rfl

theorem memRead_eq_ok {a : Nat} {s : State} {v : Byte} :
    memRead a s = .ok v ↔ s.inStore a = true ∧ s.store.read a = some v := by
  unfold memRead
  by_cases h : s.inStore a = true
  · cases hr : s.store.read a <;> simp [h]
  · simp [h]

theorem memWrite_eq_ok {a : Nat} {v : Byte} {s t : State} :
    memWrite a v s = .ok t ↔ s.inStore a = true ∧ t = s.setStore (s.store.write a v) := by
  unfold memWrite
  by_cases h : s.inStore a = true
  · simp [h, eq_comm]
  · simp [h]

/-- A run of reads answers exactly when every address is in the store and written, and then with those bytes. -/
theorem readBytes_eq_ok {as : List Nat} {s : State} {vs : List Byte} :
    readBytes as s = .ok vs ↔ (∀ a ∈ as, s.inStore a = true) ∧ as.map s.store.read = vs.map some := by
  induction as generalizing vs with
  | nil => cases vs <;> simp [readBytes]
  | cons a as ih =>
    unfold readBytes
    cases hr : memRead a s with
    | error f =>
      simp only [reduceCtorEq, false_iff]
      rintro ⟨h1, h2⟩
      cases vs with
      | nil => simp at h2
      | cons v vs =>
        simp only [List.map_cons, List.cons.injEq] at h2
        have := (memRead_eq_ok (a := a) (s := s) (v := v)).2 ⟨h1 a (by simp), h2.1⟩
        simp [hr] at this
    | ok v =>
      obtain ⟨hin, hv⟩ := memRead_eq_ok.1 hr
      cases hrest : readBytes as s with
      | error f =>
        simp only [reduceCtorEq, false_iff]
        rintro ⟨h1, h2⟩
        cases vs with
        | nil => simp at h2
        | cons v' vs =>
          simp only [List.map_cons, List.cons.injEq] at h2
          have := ih.2 ⟨fun a ha => h1 a (by simp [ha]), h2.2⟩
          simp [hrest] at this
      | ok ws =>
        obtain ⟨h1, h2⟩ := ih.1 hrest
        constructor
        · intro h
          simp only [Except.ok.injEq] at h
          subst h
          exact ⟨by simpa [hin] using h1, by simp [hv, h2]⟩
        · rintro ⟨-, h⟩
          cases vs with
          | nil => simp at h
          | cons v' vs =>
            simp only [List.map_cons, List.cons.injEq, hv, Option.some.injEq] at h
            obtain ⟨hvv, h⟩ := h
            have : ws = vs := by
              have hinj : Function.Injective (some : Byte → Option Byte) := Option.some_injective _
              exact hinj.list_map (h2.symm.trans h)
            simp [hvv, this]

/-- Written addresses inside the store can be read. -/
theorem readBytes_of_written {as : List Nat} {s : State} (hin : ∀ a ∈ as, s.inStore a = true)
    (hw : ∀ a ∈ as, (s.store.read a).isSome = true) : ∃ vs, readBytes as s = .ok vs := by
  induction as with
  | nil => exact ⟨[], rfl⟩
  | cons a as ih =>
    obtain ⟨vs, hvs⟩ := ih (fun b hb => hin b (by simp [hb])) (fun b hb => hw b (by simp [hb]))
    obtain ⟨v, hv⟩ := Option.isSome_iff_exists.1 (hw a (by simp))
    have hr := (memRead_eq_ok (a := a) (s := s) (v := v)).2 ⟨hin a (by simp), hv⟩
    exact ⟨v :: vs, by simp [readBytes, hr, hvs]⟩

/-- A run of reads answers one byte per address. -/
theorem readBytes_length {as : List Nat} {s : State} {vs : List Byte} (h : readBytes as s = .ok vs) :
    vs.length = as.length := by
  have := congrArg List.length (readBytes_eq_ok.1 h).2
  simpa using this.symm

/-- Byte `k` of a run of reads is the byte at address `k` of the run. -/
theorem readBytes_getElem {as : List Nat} {s : State} {vs : List Byte} (h : readBytes as s = .ok vs)
    {k : Nat} {a : Nat} (hk : as[k]? = some a) : vs[k]? = s.store.read a := by
  have h2 := congrArg (fun l => l[k]?) (readBytes_eq_ok.1 h).2
  simp only [List.getElem?_map, hk, Option.map_some] at h2
  cases hv : vs[k]? with
  | none => simp [hv] at h2
  | some v => simpa [hv] using h2.symm

/-- A run of writes changes the store and nothing else, and keeps its canonical form. -/
theorem writeBytes_setStore {a : Nat} {vs : List Byte} {s t : State} (h : writeBytes a vs s = .ok t) :
    t = s.setStore t.store := by
  induction vs generalizing a s with
  | nil =>
    simp only [writeBytes, Except.ok.injEq] at h
    subst h
    rfl
  | cons v vs ih =>
    cases hw : memWrite a v s with
    | error f => simp [writeBytes, hw] at h
    | ok u =>
      obtain ⟨-, rfl⟩ := memWrite_eq_ok.1 hw
      simp only [writeBytes, hw] at h
      simpa using ih h

/-- What the store holds after a run of writes. -/
theorem writeBytes_read {a : Nat} {vs : List Byte} {s t : State} (h : writeBytes a vs s = .ok t) (b : Nat) :
    t.store.read b = if a ≤ b ∧ b < a + vs.length then vs[b - a]? else s.store.read b := by
  induction vs generalizing a s with
  | nil =>
    simp only [writeBytes, Except.ok.injEq] at h
    subst h
    simp
  | cons v vs ih =>
    cases hw : memWrite a v s with
    | error f => simp [writeBytes, hw] at h
    | ok u =>
      obtain ⟨-, rfl⟩ := memWrite_eq_ok.1 hw
      simp only [writeBytes, hw] at h
      rw [ih h, State.setStore_store, Memory.read_write]
      by_cases hb : b = a
      · subst hb
        simp
      · by_cases hin : a + 1 ≤ b ∧ b < a + 1 + vs.length
        · have h2 : a ≤ b ∧ b < a + (v :: vs).length := by simp; omega
          have h3 : b - a = b - (a + 1) + 1 := by omega
          rw [if_pos hin, if_pos h2, h3, List.getElem?_cons_succ]
        · have h2 : ¬(a ≤ b ∧ b < a + (v :: vs).length) := by simp; omega
          rw [if_neg hin, if_neg h2, if_neg hb]

/-- A run of writes inside the store answers. -/
theorem writeBytes_of_inStore {a : Nat} {vs : List Byte} {s : State}
    (h : ∀ b, a ≤ b → b < a + vs.length → s.inStore b = true) : ∃ t, writeBytes a vs s = .ok t := by
  induction vs generalizing a s with
  | nil => exact ⟨s, rfl⟩
  | cons v vs ih =>
    have ha : s.inStore a = true := h a (by omega) (by simp)
    have hw := (memWrite_eq_ok (a := a) (v := v) (s := s)).2 ⟨ha, rfl⟩
    obtain ⟨t, ht⟩ := ih (a := a + 1) (s := s.setStore (s.store.write a v))
      (fun b h1 h2 => by simpa using h b (by omega) (by simp; omega))
    exact ⟨t, by simp [writeBytes, hw, ht]⟩

/-- A run of writes that answers kept inside the store. -/
theorem writeBytes_inStore {a : Nat} {vs : List Byte} {s t : State} (h : writeBytes a vs s = .ok t)
    {b : Nat} (h1 : a ≤ b) (h2 : b < a + vs.length) : s.inStore b = true := by
  induction vs generalizing a s with
  | nil => simp at h2; omega
  | cons v vs ih =>
    cases hw : memWrite a v s with
    | error f => simp [writeBytes, hw] at h
    | ok u =>
      obtain ⟨ha, rfl⟩ := memWrite_eq_ok.1 hw
      simp only [writeBytes, hw] at h
      by_cases hb : b = a
      · exact hb ▸ ha
      · simpa using ih h (by omega) (by simp at h2; omega)

/-- What every operation on the store keeps: its canonical form, and that its cells lie inside the collaborator. -/
def StoreGood (s : State) : Prop :=
  Memory.wf s.store = true ∧ ∀ c ∈ s.store, c.1 < s.cfg.storeCap.val

theorem memWrite_storeGood {a : Nat} {v : Byte} {s t : State} (h : memWrite a v s = .ok t)
    (hg : StoreGood s) : StoreGood t := by
  obtain ⟨hin, rfl⟩ := memWrite_eq_ok.1 h
  refine ⟨Memory.wf_write a v hg.1, fun c hc => ?_⟩
  rcases Memory.mem_write hc with rfl | hc
  · exact ((State.inStore_iff s a).1 hin).2
  · exact hg.2 c hc

theorem writeBytes_storeGood {a : Nat} {vs : List Byte} {s t : State} (h : writeBytes a vs s = .ok t)
    (hg : StoreGood s) : StoreGood t := by
  induction vs generalizing a s with
  | nil =>
    simp only [writeBytes, Except.ok.injEq] at h
    exact h ▸ hg
  | cons v vs ih =>
    cases hw : memWrite a v s with
    | error f => simp [writeBytes, hw] at h
    | ok u =>
      simp only [writeBytes, hw] at h
      exact ih h (memWrite_storeGood hw hg)

/-- The drawn byte, bit by bit: the mask's bit takes the colour, every other bit stays (40_calculator.md R114). -/
theorem drawnByte_getLsbD {k j : Nat} (hk : k < 8) (hj : j < 8) (c : Mono) (v : Byte) :
    (drawnByte (maskOf k) c v).getLsbD j = if j = k then monoBit c else v.getLsbD j := by
  cases c with
  | zero =>
    simp only [drawnByte, BitVec.getLsbD_and, BitVec.getLsbD_not, maskOf_getLsbD hk, monoBit]
    by_cases h : j = k <;> simp [h, hj]
  | one =>
    simp only [drawnByte, BitVec.getLsbD_or, maskOf_getLsbD hk, monoBit]
    by_cases h : j = k <;> simp [h]

/-- `draw_byte` answers exactly on a written byte of the store, and writes that byte. -/
theorem drawByte_eq_ok {idx : Nat} {mask : Byte} {c : Mono} {s t : State} :
    drawByte idx mask c s = .ok t ↔
      s.inStore idx = true ∧
        ∃ v, s.store.read idx = some v ∧ t = s.setStore (s.store.write idx (drawnByte mask c v)) := by
  unfold drawByte
  cases hr : memRead idx s with
  | error f =>
    simp only [reduceCtorEq, false_iff]
    rintro ⟨h1, v, h2, -⟩
    have := (memRead_eq_ok (a := idx) (s := s) (v := v)).2 ⟨h1, h2⟩
    simp [hr] at this
  | ok v =>
    obtain ⟨h1, h2⟩ := memRead_eq_ok.1 hr
    simp only [memWrite_eq_ok, h1, h2, true_and, Option.some.injEq]
    constructor
    · rintro rfl
      exact ⟨v, rfl, rfl⟩
    · rintro ⟨v', rfl, rfl⟩
      rfl

/-- A store bit at an address 8 or more is not there. -/
theorem storeBit_eq_none {s : State} {a k : Nat} : storeBit s a k = none ↔ s.store.read a = none := by
  simp [storeBit]

/-- `draw` changes the store and nothing else: one bit (40_calculator.md R115, 20_memory.md R51). -/
theorem draw_eq_ok {x y : Nat} {c : Mono} {s t : State} (h : draw x y c s = .ok t) :
    t = s.setStore t.store ∧
      pixel t x y = some (monoBit c) ∧
      ∀ a k, k < 8 → (a ≠ (s.pixelAddress x y).index ∨ k ≠ (s.pixelAddress x y).phys) →
        storeBit t a k = storeBit s a k := by
  obtain ⟨hin, v, hv, rfl⟩ := drawByte_eq_ok.1 h
  have hk : (s.pixelAddress x y).phys < 8 := bitAddress_phys_lt _ _ _ _
  have hp : ∀ m, (s.setStore m).pixelAddress x y = s.pixelAddress x y := fun m => rfl
  refine ⟨rfl, ?_, fun a k hk8 hne => ?_⟩
  · simp only [pixel, hp, storeBit, State.setStore_store, Memory.read_write_same, Option.map_some,
      drawnByte_getLsbD hk hk, if_true]
  · simp only [storeBit, State.setStore_store, Memory.read_write]
    by_cases ha : a = (s.pixelAddress x y).index
    · have hk' : k ≠ (s.pixelAddress x y).phys := by
        rcases hne with h | h
        · exact absurd ha h
        · exact h
      simp [ha, hv, drawnByte_getLsbD hk hk8, hk']
    · simp [ha]

/-- Every byte that was written stays written. -/
def StillWritten (s t : State) : Prop :=
  ∀ a, (s.store.read a).isSome = true → (t.store.read a).isSome = true

theorem draw_stillWritten {x y : Nat} {c : Mono} {s t : State} (h : draw x y c s = .ok t) :
    StillWritten s t := by
  obtain ⟨hin, v, hv, rfl⟩ := drawByte_eq_ok.1 h
  intro a ha
  rw [State.setStore_store, Memory.read_write]
  by_cases hb : a = (s.pixelAddress x y).index
  · simp [hb]
  · simpa [hb] using ha

theorem draw_storeGood {x y : Nat} {c : Mono} {s t : State} (h : draw x y c s = .ok t)
    (hg : StoreGood s) : StoreGood t := by
  obtain ⟨hin, v, -, rfl⟩ := drawByte_eq_ok.1 h
  exact memWrite_storeGood (memWrite_eq_ok.2 ⟨hin, rfl⟩) hg

/-- `draw` answers on a written byte of the store. -/
theorem draw_of_written {x y : Nat} {c : Mono} {s : State}
    (hin : s.inStore (s.pixelAddress x y).index = true)
    (hw : (s.store.read (s.pixelAddress x y).index).isSome = true) : ∃ t, draw x y c s = .ok t := by
  obtain ⟨v, hv⟩ := Option.isSome_iff_exists.1 hw
  exact ⟨_, drawByte_eq_ok.2 ⟨hin, v, hv, rfl⟩⟩

/-- Drawing pixels changes the store and nothing else. -/
theorem drawAll_setStore {ps : List PixelWrite} {s t : State} (h : drawAll ps s = .ok t) :
    t = s.setStore t.store := by
  induction ps generalizing s with
  | nil =>
    simp only [drawAll, Except.ok.injEq] at h
    exact h ▸ rfl
  | cons p ps ih =>
    cases hd : draw p.x p.y p.c s with
    | error f => simp [drawAll, hd] at h
    | ok u =>
      simp only [drawAll, hd] at h
      rw [ih h, (draw_eq_ok hd).1]
      rfl

theorem drawAll_storeGood {ps : List PixelWrite} {s t : State} (h : drawAll ps s = .ok t)
    (hg : StoreGood s) : StoreGood t := by
  induction ps generalizing s with
  | nil =>
    simp only [drawAll, Except.ok.injEq] at h
    exact h ▸ hg
  | cons p ps ih =>
    cases hd : draw p.x p.y p.c s with
    | error f => simp [drawAll, hd] at h
    | ok u =>
      simp only [drawAll, hd] at h
      exact ih h (draw_storeGood hd hg)

theorem drawAll_stillWritten {ps : List PixelWrite} {s t : State} (h : drawAll ps s = .ok t) :
    StillWritten s t := by
  induction ps generalizing s with
  | nil =>
    simp only [drawAll, Except.ok.injEq] at h
    exact h ▸ fun a ha => ha
  | cons p ps ih =>
    cases hd : draw p.x p.y p.c s with
    | error f => simp [drawAll, hd] at h
    | ok u =>
      simp only [drawAll, hd] at h
      exact fun a ha => ih h a (draw_stillWritten hd a ha)

/-- The pixel address depends on the configuration only. -/
theorem pixelAddress_setStore (m : Memory) (s : State) (x y : Nat) :
    (s.setStore m).pixelAddress x y = s.pixelAddress x y := rfl

theorem draw_pixelAddress {x y : Nat} {c : Mono} {s t : State} (h : draw x y c s = .ok t) (x' y' : Nat) :
    t.pixelAddress x' y' = s.pixelAddress x' y' := by
  rw [(draw_eq_ok h).1]
  rfl

theorem drawAll_pixelAddress {ps : List PixelWrite} {s t : State} (h : drawAll ps s = .ok t) (x y : Nat) :
    t.pixelAddress x y = s.pixelAddress x y := by
  rw [drawAll_setStore h]
  rfl

/-- A bit that no drawn pixel addresses stays. -/
theorem drawAll_storeBit_other {ps : List PixelWrite} {s t : State} (h : drawAll ps s = .ok t)
    {a k : Nat} (hk : k < 8)
    (hne : ∀ p ∈ ps, a ≠ (s.pixelAddress p.x p.y).index ∨ k ≠ (s.pixelAddress p.x p.y).phys) :
    storeBit t a k = storeBit s a k := by
  induction ps generalizing s with
  | nil =>
    simp only [drawAll, Except.ok.injEq] at h
    exact h ▸ rfl
  | cons p ps ih =>
    cases hd : draw p.x p.y p.c s with
    | error f => simp [drawAll, hd] at h
    | ok u =>
      simp only [drawAll, hd] at h
      rw [ih h fun q hq => by
        have := hne q (by simp [hq])
        simpa [draw_pixelAddress hd] using this]
      exact (draw_eq_ok hd).2.2 a k hk (hne p (by simp))

/-- A bit that some drawn pixel addresses takes that pixel's colour, when every drawn pixel that addresses it has one
colour. -/
theorem drawAll_storeBit_drawn {ps : List PixelWrite} {s t : State} (h : drawAll ps s = .ok t)
    {a k : Nat} {c : Mono} (hk : k < 8)
    (hex : ∃ p ∈ ps, (s.pixelAddress p.x p.y).index = a ∧ (s.pixelAddress p.x p.y).phys = k)
    (hall : ∀ p ∈ ps, (s.pixelAddress p.x p.y).index = a → (s.pixelAddress p.x p.y).phys = k → p.c = c) :
    storeBit t a k = some (monoBit c) := by
  induction ps generalizing s with
  | nil => simp at hex
  | cons q ps ih =>
    cases hd : draw q.x q.y q.c s with
    | error f => simp [drawAll, hd] at h
    | ok u =>
      simp only [drawAll, hd] at h
      have haddr : ∀ x y, u.pixelAddress x y = s.pixelAddress x y := draw_pixelAddress hd
      by_cases hin : ∃ p ∈ ps, (s.pixelAddress p.x p.y).index = a ∧ (s.pixelAddress p.x p.y).phys = k
      · refine ih h (by simpa [haddr] using hin) fun p hp => ?_
        rw [haddr]
        exact hall p (by simp [hp])
      · rw [drawAll_storeBit_other h hk fun p hp => ?_]
        · obtain ⟨p, hp, h1, h2⟩ := hex
          have hpq : p = q := by
            rcases List.mem_cons.1 hp with h | h
            · exact h
            · exact absurd ⟨p, h, h1, h2⟩ hin
          subst hpq
          have hpix := (draw_eq_ok hd).2.1
          rw [pixel, haddr, h1, h2] at hpix
          rw [hpix, hall p (by simp) h1 h2]
        · rw [haddr]
          by_contra hcon
          rw [not_or, not_not, not_not] at hcon
          exact hin ⟨p, hp, hcon.1.symm, hcon.2.symm⟩

/-- Drawing answers when every pixel's byte is in the store and written. -/
theorem drawAll_of_written {ps : List PixelWrite} {s : State}
    (hin : ∀ p ∈ ps, s.inStore (s.pixelAddress p.x p.y).index = true)
    (hw : ∀ p ∈ ps, (s.store.read (s.pixelAddress p.x p.y).index).isSome = true) :
    ∃ t, drawAll ps s = .ok t := by
  induction ps generalizing s with
  | nil => exact ⟨s, rfl⟩
  | cons p ps ih =>
    obtain ⟨u, hu⟩ := draw_of_written (c := p.c) (hin p (by simp)) (hw p (by simp))
    have hset := (draw_eq_ok hu).1
    obtain ⟨t, ht⟩ := ih (s := u)
      (fun q hq => by
        rw [draw_pixelAddress hu, hset]
        exact hin q (by simp [hq]))
      (fun q hq => by
        rw [draw_pixelAddress hu]
        exact draw_stillWritten hu _ (hw q (by simp [hq])))
    exact ⟨t, by simp [drawAll, hu, ht]⟩

end Sys2Proof.Machine
end

