-- ==== Sys2Proof/Laws/Commands.lean ====
section
/-! SUPPORT. What the bodies of the commands do: the clamped rectangle, the construction of a buffer, and what each
turn of the machine can answer. -/

namespace Sys2Proof.Machine

open Sys2Proof.Safety

/-- The pixels of the clamped region, one by one (41_transfer.md R121, R122). -/
theorem mem_clampedPixels {r : Rect} {s : State} {p : PixelWrite} :
    p ∈ clampedPixels r s ↔
      ∃ i j, i < effWidth r s ∧ j < effHeight r s ∧
        p = { x := r.x + i, y := r.y + j, c := s.inPixel (j * r.w + i) } := by
  simp only [clampedPixels, List.mem_flatMap, List.mem_range, List.mem_map]
  constructor
  · rintro ⟨j, hj, i, hi, rfl⟩
    exact ⟨i, j, hi, hj, rfl⟩
  · rintro ⟨i, j, hi, hj, rfl⟩
    exact ⟨j, hj, i, hi, rfl⟩

/-- Every pixel of the clamped region is inside the buffer (41_transfer.md R123). -/
theorem clampedPixels_inside {r : Rect} {s : State} {p : PixelWrite} (h : p ∈ clampedPixels r s) :
    p.x < s.width.toNat ∧ p.y < s.height.toNat := by
  obtain ⟨i, j, hi, hj, rfl⟩ := mem_clampedPixels.1 h
  simp only [effWidth, effHeight] at hi hj
  constructor <;> simp only <;> omega

/-- A buffer's stride and store length are those of its orientation and size (10_state.md R34). -/
theorem stride_of_bufferInv {s : State} (hv : s.valid = true) (h : BufferInv s) :
    s.stride = strideOf s.orient s.width.toNat ∧
      s.storelen.toNat = required s.orient s.width.toNat s.height.toNat ∧
      s.storelen.toNat ≤ s.cfg.storeCap.val := by
  obtain ⟨h1, h2, h3⟩ := h hv
  refine ⟨?_, ?_, h3⟩
  · cases ho : s.orient with
    | horizontal => simpa [State.stride, strideOf, ho, packedExtent, packedDim] using h1
    | vertical => simp [State.stride, strideOf, ho]
  · rw [h2, h1]
    rfl

/-- A pixel inside a good buffer has its byte in the store and written (40_calculator.md R109). -/
theorem pixelAddress_inStore {s : State} (hv : s.valid = true) (h : GoodBuffer s) {x y : Nat}
    (hx : x < s.width.toNat) (hy : y < s.height.toNat) :
    s.inStore (s.pixelAddress x y).index = true ∧
      (s.store.read (s.pixelAddress x y).index).isSome = true := by
  obtain ⟨h1, h2, h3⟩ := stride_of_bufferInv hv h.1
  have hlt : (s.pixelAddress x y).index < s.storelen.toNat := by
    rw [State.pixelAddress, h1, h2]
    exact bitAddress_index_lt _ hx hy
  exact ⟨(State.inStore_iff _ _).2 ⟨hlt, by omega⟩, h.2 hv _ hlt⟩

/-- Two pixels inside a good buffer with one byte and one bit are one pixel (40_calculator.md R109). -/
theorem pixelAddress_inj {s : State} (hv : s.valid = true) (h : BufferInv s) {x y x' y' : Nat}
    (hx : x < s.width.toNat) (hx' : x' < s.width.toNat)
    (hi : (s.pixelAddress x y).index = (s.pixelAddress x' y').index)
    (hp : (s.pixelAddress x y).phys = (s.pixelAddress x' y').phys) : x = x' ∧ y = y' := by
  simp only [State.pixelAddress, (stride_of_bufferInv hv h).1] at hi hp
  exact bitAddress_inj s.orient hx hx' hi hp

/-- The loop of UPDATE answers on a good buffer. -/
theorem drawRect_of_good {r : Rect} {s : State} (hv : s.valid = true) (h : GoodBuffer s) :
    ∃ t, drawRect r s = .ok t :=
  drawAll_of_written
    (fun _ hp => (pixelAddress_inStore hv h (clampedPixels_inside hp).1 (clampedPixels_inside hp).2).1)
    (fun _ hp => (pixelAddress_inStore hv h (clampedPixels_inside hp).1 (clampedPixels_inside hp).2).2)

/-- The loop of UPDATE writes each pixel of the clamped region (41_transfer.md R124). -/
theorem drawRect_pixel {r : Rect} {s t : State} (hv : s.valid = true) (hb : BufferInv s)
    (h : drawRect r s = .ok t) {i j : Nat} (hi : i < effWidth r s) (hj : j < effHeight r s) :
    pixel t (r.x + i) (r.y + j) = some (monoBit (s.inPixel (j * r.w + i))) := by
  have hp : (⟨r.x + i, r.y + j, s.inPixel (j * r.w + i)⟩ : PixelWrite) ∈ clampedPixels r s :=
    mem_clampedPixels.2 ⟨i, j, hi, hj, rfl⟩
  rw [pixel, drawAll_pixelAddress h]
  refine drawAll_storeBit_drawn h (bitAddress_phys_lt _ _ _ _) ⟨_, hp, rfl, rfl⟩ fun q hq h1 h2 => ?_
  have hxy := pixelAddress_inj hv hb (clampedPixels_inside hq).1 (clampedPixels_inside hp).1 h1 h2
  obtain ⟨i', j', -, -, rfl⟩ := mem_clampedPixels.1 hq
  simp only at hxy
  have h3 : i' = i := by omega
  have h4 : j' = j := by omega
  simp [h3, h4]

/-- The loop of UPDATE leaves every bit no pixel of the clamped region addresses (41_transfer.md R125). -/
theorem drawRect_other {r : Rect} {s t : State} (h : drawRect r s = .ok t) {a k : Nat} (hk : k < 8)
    (hne : ∀ i j, i < effWidth r s → j < effHeight r s →
      a ≠ (s.pixelAddress (r.x + i) (r.y + j)).index ∨ k ≠ (s.pixelAddress (r.x + i) (r.y + j)).phys) :
    storeBit t a k = storeBit s a k := by
  refine drawAll_storeBit_other h hk fun p hp => ?_
  obtain ⟨i, j, hi, hj, rfl⟩ := mem_clampedPixels.1 hp
  exact hne i j hi hj

/-- The bytes of a store decide its bits, and its bits its bytes. -/
theorem read_eq_of_storeBit {s t : State} {a : Nat} (h : ∀ k < 8, storeBit s a k = storeBit t a k) :
    s.store.read a = t.store.read a := by
  have h0 := h 0 (by omega)
  cases hs : s.store.read a with
  | none => simpa [storeBit, hs, eq_comm] using h0
  | some v =>
    cases ht : t.store.read a with
    | none => simp [storeBit, hs, ht] at h0
    | some w =>
      congr 1
      refine BitVec.eq_of_getLsbD_eq fun k hk => ?_
      simpa [storeBit, hs, ht] using h k hk

/-- A construction that fits leaves the installed configuration and the bytes given, from address 0 up. -/
theorem build_eq_ok {o : Orientation} {bytes : List Byte} {s t : State} (h : build o bytes s = .ok t) :
    t = (s.install o s.opw s.oph (s.requiredOperand o)).setStore t.store ∧
      ∀ a, t.store.read a = if a < bytes.length then bytes[a]? else s.store.read a := by
  refine ⟨writeBytes_setStore h, fun a => ?_⟩
  have := writeBytes_read h a
  simpa using this

/-- A required length within the capacity survives the 32-bit STORELEN. -/
theorem requiredOperand_toNat {o : Orientation} {s : State} (h : s.requiredOperand o ≤ s.cfg.storeCap.val) :
    (BitVec.ofNat 32 (s.requiredOperand o)).toNat = s.requiredOperand o := by
  have := s.cfg.storeCap.isLt
  simp only [BitVec.toNat_ofNat]
  omega

/-- The eight-length of a 32-bit extent survives the 32-bit EIGHTLEN. -/
theorem eightLength_toNat (w : Word) : (BitVec.ofNat 32 (eightLength w.toNat)).toNat = eightLength w.toNat := by
  have := eightLength_le w.toNat w.isLt
  simp only [BitVec.toNat_ofNat]
  omega

/-- A construction that fits answers. -/
theorem build_of_fits {o : Orientation} {bytes : List Byte} {s : State}
    (hl : bytes.length = s.requiredOperand o) (h : s.requiredOperand o ≤ s.cfg.storeCap.val) :
    ∃ t, build o bytes s = .ok t := by
  refine writeBytes_of_inStore fun a _ ha => (State.inStore_iff _ _).2 ?_
  simp only [State.install_storelen, State.install_cfg, requiredOperand_toNat h]
  omega

/-- A construction that fits leaves a good buffer (42_construction.md R155). -/
theorem build_good {o : Orientation} {bytes : List Byte} {s t : State} (h : build o bytes s = .ok t)
    (hl : bytes.length = s.requiredOperand o) (hc : s.requiredOperand o ≤ s.cfg.storeCap.val) :
    t.valid = true ∧ GoodBuffer t := by
  obtain ⟨ht, hr⟩ := build_eq_ok h
  have hv : t.valid = true := by rw [ht]; rfl
  have hs : t.storelen.toNat = s.requiredOperand o := by
    rw [ht]
    simp [requiredOperand_toNat hc, -BitVec.toNat_ofNat]
  refine ⟨hv, fun _ => ⟨?_, ?_, ?_⟩, fun _ a ha => ?_⟩
  · rw [ht]
    cases o <;> simp [packedExtent, packedDim, eightLength_toNat, -BitVec.toNat_ofNat]
  · rw [hs, ht]
    cases o <;>
      simp [packedDim, otherExtent, otherDim, eightLength_toNat, State.requiredOperand, required, -BitVec.toNat_ofNat]
  · rw [hs, ht]
    simpa using hc
  · have ha' : a < bytes.length := by omega
    rw [hr a, if_pos ha']
    simp [ha']

/-- A body that has run: the command completes with OK, or the model faults. -/
theorem completeBody_eq_next {r : Except Fault State} {t : State} :
    completeBody r = .next t ↔ ∃ u, r = .ok u ∧ t = u.finish .ok := by
  cases r <;> simp [completeBody, eq_comm]

/-- What a turn can answer as a next state. -/
theorem takeTurn_eq_next {x : Turn} {s t : State} (h : takeTurn x s = .next t) :
    (x = .reset ∧ t = s.afterReset) ∨
      (s.hazard = none ∧
        ((x = .engine ∧ engineTurn s = .next t) ∨ ∃ tr, x = .host tr ∧ hostTurn tr s = .next t)) := by
  cases x with
  | reset =>
    simp only [takeTurn, Host.Outcome.next.injEq] at h
    exact .inl ⟨rfl, h.symm⟩
  | engine =>
    cases hz : s.hazard with
    | none => exact .inr ⟨rfl, .inl ⟨rfl, by simpa [takeTurn, hz] using h⟩⟩
    | some info => simp [takeTurn, hz] at h
  | host tr =>
    cases hz : s.hazard with
    | none => exact .inr ⟨rfl, .inr ⟨tr, rfl, by simpa [takeTurn, hz] using h⟩⟩
    | some info => simp [takeTurn, hz] at h

/-- What the engine's turn can answer as a next state. -/
theorem engineTurn_eq_next {s t : State} (h : engineTurn s = .next t) :
    (s.busy = false ∧ t = s) ∨ (s.busy = true ∧ runPending s = .next t) := by
  cases hb : s.busy with
  | false =>
    simp only [engineTurn, hb, Bool.false_eq_true, if_false, Host.Outcome.next.injEq] at h
    exact .inl ⟨rfl, h.symm⟩
  | true => exact .inr ⟨rfl, by simpa [engineTurn, hb] using h⟩

/-- What the pending word can answer as a next state. -/
theorem runPending_eq_next {s t : State} (h : runPending s = .next t) :
    (∃ i, decode s.pending = .ok i ∧ exec i s = .next t) ∨
      (∃ e, decode s.pending = .error e ∧ t = s.finish .errIllegal) := by
  unfold runPending at h
  cases hd : decode s.pending with
  | ok i => exact .inl ⟨i, rfl, by simpa [hd] using h⟩
  | error e =>
    simp only [hd, complete, Host.Outcome.next.injEq] at h
    exact .inr ⟨e, rfl, h.symm⟩

/-- What a host turn can answer as a next state. -/
theorem hostTurn_eq_next {tr : Transaction} {s t : State} (h : hostTurn tr s = .next t) :
    WellFormed.transaction s.cfg tr = true ∧
      ((s.busy = true ∧ isStatusRead tr = false ∧ t = s.raiseHazard (hazardInfo tr)) ∨
        ((s.busy = false ∨ isStatusRead tr = true) ∧ t = transact tr s)) := by
  unfold hostTurn at h
  cases hw : WellFormed.transaction s.cfg tr <;> cases hb : s.busy <;> cases hr : isStatusRead tr <;>
    simp_all

end Sys2Proof.Machine
end

