-- ==== Sys2Proof/Laws/Exec.lean ====
section
/-! SUPPORT. What each command can answer as a next state, one lemma per meaning: which check decided, and what follows. -/

namespace Sys2Proof.Machine

open Sys2Proof.Safety

theorem complete_eq_next {c : Code} {s t : State} : complete c s = .next t ↔ t = s.finish c := by
  simp [complete, eq_comm]

/-- NEW (42_construction.md R151). -/
theorem newBuffer_eq_next {o : Orientation} {s t : State} (h : newBuffer o s = .next t) :
    (s.cfg.storeCap.val < s.requiredOperand o ∧ t = s.finish .errLength) ∨
      (s.requiredOperand o ≤ s.cfg.storeCap.val ∧
        ∃ u, build o (zeroBytes o s) s = .ok u ∧ t = u.finish .ok) := by
  unfold newBuffer at h
  split at h
  · exact .inl ⟨‹_›, complete_eq_next.1 h⟩
  · exact .inr ⟨by omega, completeBody_eq_next.1 h⟩

/-- WDATA (42_construction.md R152). -/
theorem wdataBuffer_eq_next {o : Orientation} {s t : State} (h : wdataBuffer o s = .next t) :
    ((s.inbuf.length ≠ s.opw.toNat * s.oph.toNat ∨ s.cfg.storeCap.val < s.requiredOperand o) ∧
        t = s.finish .errLength) ∨
      (s.inbuf.length = s.opw.toNat * s.oph.toNat ∧ s.requiredOperand o ≤ s.cfg.storeCap.val ∧
        ∃ u w, build o (zeroBytes o s) s = .ok u ∧ drawRect u.fullRect u = .ok w ∧ t = w.finish .ok) := by
  unfold wdataBuffer at h
  split at h
  · exact .inl ⟨.inl ‹_›, complete_eq_next.1 h⟩
  · split at h
    · exact .inl ⟨.inr ‹_›, complete_eq_next.1 h⟩
    · split at h
      · simp at h
      · rename_i u hu
        obtain ⟨w, hw, ht⟩ := completeBody_eq_next.1 h
        exact .inr ⟨by omega, by omega, u, w, hu, hw, ht⟩

/-- WPACK (42_construction.md R153). -/
theorem wpackBuffer_eq_next {o : Orientation} {s t : State} (h : wpackBuffer o s = .next t) :
    ((s.inbuf.length ≠ s.requiredOperand o ∨ s.cfg.storeCap.val < s.requiredOperand o) ∧
        t = s.finish .errLength) ∨
      (s.inbuf.length = s.requiredOperand o ∧ s.requiredOperand o ≤ s.cfg.storeCap.val ∧
        ∃ u, build o s.inbuf s = .ok u ∧ t = u.finish .ok) := by
  unfold wpackBuffer at h
  split at h
  · exact .inl ⟨.inl ‹_›, complete_eq_next.1 h⟩
  · split at h
    · exact .inl ⟨.inr ‹_›, complete_eq_next.1 h⟩
    · exact .inr ⟨by omega, by omega, completeBody_eq_next.1 h⟩

/-- UPDATE (41_transfer.md R121). -/
theorem execUpdate_eq_next {s t : State} (h : execUpdate s = .next t) :
    (s.valid = false ∧ t = s.finish .errNoBuffer) ∨
      (s.valid = true ∧ s.inbuf.length ≠ s.opw.toNat * s.oph.toNat ∧ t = s.finish .errLength) ∨
      (s.valid = true ∧ s.inbuf.length = s.opw.toNat * s.oph.toNat ∧
        s.rectOperand.outside s = true ∧ t = s.finish .ok) ∨
      (s.valid = true ∧ s.inbuf.length = s.opw.toNat * s.oph.toNat ∧
        s.rectOperand.outside s = false ∧ ∃ u, drawRect s.rectOperand s = .ok u ∧ t = u.finish .ok) := by
  unfold execUpdate at h
  split at h
  · exact .inl ⟨‹_›, complete_eq_next.1 h⟩
  · have hv : s.valid = true := by simpa using ‹¬s.valid = false›
    split at h
    · exact .inr (.inl ⟨hv, ‹_›, complete_eq_next.1 h⟩)
    · split at h
      · exact .inr (.inr (.inl ⟨hv, by omega, ‹_›, complete_eq_next.1 h⟩))
      · exact .inr (.inr (.inr ⟨hv, by omega, by simpa using ‹¬s.rectOperand.outside s = true›,
          completeBody_eq_next.1 h⟩))

/-- EXTRACT (41_transfer.md R127). -/
theorem execExtract_eq_next {s t : State} (h : execExtract s = .next t) :
    (s.valid = false ∧ t = s.finish .errNoBuffer) ∨
      (s.valid = true ∧ s.rectOperand.outside s = true ∧
        t = ((s.setOutbuf []).setRes 0 0 0 0).finish .ok) ∨
      (s.valid = true ∧ s.rectOperand.outside s = false ∧
        ∃ bytes, readBytes (copyAddresses (computePart s.rectOperand s) s) s = .ok bytes ∧
          t = ((s.setOutbuf bytes).setRes (computePart s.rectOperand s).rect.x
            (computePart s.rectOperand s).rect.y (computePart s.rectOperand s).rect.w
            (computePart s.rectOperand s).rect.h).finish .ok) := by
  unfold execExtract at h
  split at h
  · exact .inl ⟨‹_›, complete_eq_next.1 h⟩
  · have hv : s.valid = true := by simpa using ‹¬s.valid = false›
    split at h
    · exact .inr (.inl ⟨hv, ‹_›, complete_eq_next.1 h⟩)
    · dsimp only at h
      split at h
      · simp at h
      · rename_i bytes hb
        exact .inr (.inr ⟨hv, by simpa using ‹¬s.rectOperand.outside s = true›, bytes, hb,
          complete_eq_next.1 h⟩)

/-- ASVEC (41_transfer.md R131). -/
theorem execAsvec_eq_next {s t : State} (h : execAsvec s = .next t) :
    (s.valid = false ∧ t = s.finish .errNoBuffer) ∨
      (s.valid = true ∧ ∃ bytes, readBytes (List.range s.storelen.toNat) s = .ok bytes ∧
        t = (s.setOutbuf bytes).finish .ok) := by
  unfold execAsvec at h
  split at h
  · exact .inl ⟨‹_›, complete_eq_next.1 h⟩
  · have hv : s.valid = true := by simpa using ‹¬s.valid = false›
    split at h
    · simp at h
    · rename_i bytes hb
      exact .inr ⟨hv, bytes, hb, complete_eq_next.1 h⟩

/-- A store-only change of a state, which is all that drawing does. -/
theorem drawRect_setStore {r : Rect} {s t : State} (h : drawRect r s = .ok t) : t = s.setStore t.store :=
  drawAll_setStore h

/-- The outside test, as the rule writes it (41_transfer.md R121, R127). -/
theorem outside_eq_false {s : State} :
    s.rectOperand.outside s = false ↔ s.opx.toNat ≤ s.width.toNat ∧ s.opy.toNat ≤ s.height.toNat := by
  simp only [Rect.outside, Bool.or_eq_false_iff, decide_eq_false_iff_not, Nat.not_lt]
  exact Iff.rfl

theorem outside_eq_true {s : State} :
    s.rectOperand.outside s = true ↔ s.width.toNat < s.opx.toNat ∨ s.height.toNat < s.opy.toNat := by
  simp only [Rect.outside, Bool.or_eq_true, decide_eq_true_eq]
  exact Iff.rfl

/-- A grid listed row by row has as many entries as rows times columns. -/
theorem length_grid (rows cols : Nat) (f : Nat → Nat → Nat) :
    ((List.range rows).flatMap fun r => (List.range cols).map (f r)).length = rows * cols := by
  induction rows with
  | zero => simp
  | succ n ih => simp [List.range_succ, ih, Nat.succ_mul]

/-- Entry `r * cols + c` of a grid listed row by row is the one at row `r`, column `c` (41_transfer.md R128). -/
theorem getElem_grid {rows cols r c : Nat} (f : Nat → Nat → Nat) (hr : r < rows) (hc : c < cols) :
    ((List.range rows).flatMap fun r => (List.range cols).map (f r))[r * cols + c]? = some (f r c) := by
  induction rows with
  | zero => omega
  | succ n ih =>
    rw [List.range_succ, List.flatMap_append]
    by_cases h : r < n
    · have hlt : r * cols + c < n * cols := by
        have := Nat.mul_le_mul_right cols (show r + 1 ≤ n by omega)
        rw [Nat.succ_mul] at this
        omega
      rw [List.getElem?_append_left (by rw [length_grid]; exact hlt)]
      exact ih h
    · have hrn : r = n := by omega
      subst hrn
      rw [List.getElem?_append_right (by rw [length_grid]; omega), length_grid]
      simp [hc]

/-- The descriptor of an EXTRACT that is not the no-op stays inside the buffer along both axes (41_transfer.md R130). -/
theorem computePart_inside {s : State} (hv : s.valid = true) (hb : BufferInv s)
    (ho : s.rectOperand.outside s = false) :
    (computePart s.rectOperand s).orient = s.orient ∧
      (computePart s.rectOperand s).start + (computePart s.rectOperand s).plen ≤ s.eightlen.toNat ∧
      (computePart s.rectOperand s).other + (computePart s.rectOperand s).olen ≤ otherExtent s := by
  obtain ⟨h1, -, -⟩ := hb hv
  rw [outside_eq_false] at ho
  unfold computePart
  cases h : s.orient
  · simp only [packedExtent, packedDim, otherExtent, otherDim, h] at h1 ⊢
    have := div_le_eightLength ho.1
    simp only [State.rectOperand, normalizeSpan]
    refine ⟨trivial, ?_, ?_⟩ <;> omega
  · simp only [packedExtent, packedDim, otherExtent, otherDim, h] at h1 ⊢
    have := div_le_eightLength ho.2
    simp only [State.rectOperand, normalizeSpan]
    refine ⟨trivial, ?_, ?_⟩ <;> omega

/-- `copy(D)` visits `plen * olen` addresses (41_transfer.md R128). -/
theorem copyAddresses_length (d : Descriptor) (s : State) : (copyAddresses d s).length = d.plen * d.olen := by
  unfold copyAddresses
  cases d.orient
  · have := length_grid d.olen d.plen fun r c => s.eightlen.toNat * (d.other + r) + d.start + c
    simpa only [Nat.mul_comm] using this
  · exact length_grid d.plen d.olen fun p c => s.width.toNat * (d.start + p) + d.other + c

end Sys2Proof.Machine
end

