-- ==== Sys2Proof/Laws/PerInstr.lean ====
section
/-! SUPPORT. Facts about every command as syntax, one lemma per constructor (LAWS.json names the family). -/

namespace Sys2Proof.Laws.WordLegal

/-- A command is well formed and its word passes the three checks of 30_encoding.md R74. -/
def Statement (i : Instr) : Prop :=
  WellFormed.instr i = true ∧ WellFormed.word (encode i) = true

theorem elen : Statement .elen := by unfold Statement; decide

theorem baddrH : Statement .baddrH := by unfold Statement; decide

theorem baddrV : Statement .baddrV := by unfold Statement; decide

theorem norm : Statement .norm := by unfold Statement; decide

theorem newH : Statement .newH := by unfold Statement; decide

theorem newV : Statement .newV := by unfold Statement; decide

theorem wdataH : Statement .wdataH := by unfold Statement; decide

theorem wdataV : Statement .wdataV := by unfold Statement; decide

theorem wpackH : Statement .wpackH := by unfold Statement; decide

theorem wpackV : Statement .wpackV := by unfold Statement; decide

theorem update : Statement .update := by unfold Statement; decide

theorem extract : Statement .extract := by unfold Statement; decide

theorem asvec : Statement .asvec := by unfold Statement; decide

end Sys2Proof.Laws.WordLegal
end

