-- ==== Sys2Proof/Laws/Turns.lean ====
section
/-! SUPPORT. What a host transaction does, register by register, and what a step can answer as a next state. -/

namespace Sys2Proof.Machine

/-- A write of an index does one of six things (10_state.md R22, R23). -/
theorem writeIndex_cases (i : BitVec 8) (v : Word) (s : State) :
    (i = 0x00 ∧ writeIndex i v s = s.issue v) ∨ (i = 0x02 ∧ writeIndex i v s = s.setOpx v) ∨
      (i = 0x03 ∧ writeIndex i v s = s.setOpy v) ∨ (i = 0x04 ∧ writeIndex i v s = s.setOpw v) ∨
      (i = 0x05 ∧ writeIndex i v s = s.setOph v) ∨
      ((i = 0x01 ∨ 0x06 ≤ i.toNat) ∧ writeIndex i v s = s) := by
  by_cases h0 : i = 0x00
  · exact .inl ⟨h0, by rw [h0]; rfl⟩
  by_cases h2 : i = 0x02
  · exact .inr (.inl ⟨h2, by rw [h2]; rfl⟩)
  by_cases h3 : i = 0x03
  · exact .inr (.inr (.inl ⟨h3, by rw [h3]; rfl⟩))
  by_cases h4 : i = 0x04
  · exact .inr (.inr (.inr (.inl ⟨h4, by rw [h4]; rfl⟩)))
  by_cases h5 : i = 0x05
  · exact .inr (.inr (.inr (.inr (.inl ⟨h5, by rw [h5]; rfl⟩))))
  refine .inr (.inr (.inr (.inr (.inr ⟨?_, ?_⟩))))
  · revert i
    decide
  · unfold writeIndex
    cases hr : regAt i with
    | none => rfl
    | some r =>
      unfold regAt at hr
      split at hr <;> simp only [Option.some.injEq, reduceCtorEq] at hr <;> subst hr <;>
        first | rfl | exact absurd rfl ‹_›

/-- What no transaction changes: the result registers, the buffer, OUTBUF, the hazard mark, the capacities, the schedule. -/
theorem transact_frame (x : Transaction) (s : State) :
    transact x s = { s with
      cmd := (transact x s).cmd, pending := (transact x s).pending, busy := (transact x s).busy
      opx := (transact x s).opx, opy := (transact x s).opy, opw := (transact x s).opw, oph := (transact x s).oph
      inbuf := (transact x s).inbuf, observed := (transact x s).observed } := by
  cases x with
  | wr i v =>
    rcases writeIndex_cases i v s with ⟨-, h⟩ | ⟨-, h⟩ | ⟨-, h⟩ | ⟨-, h⟩ | ⟨-, h⟩ | ⟨-, h⟩ <;>
      (simp only [transact, h]; try rfl)
  | rd i => rfl
  | loadin bytes => rfl
  | readout => rfl

/-- What a step can answer as a next state: a reset; or, without a hazard mark, an idle turn of the engine, a command run,
or a host transaction. -/
theorem step_eq_next {s t : State} (h : step s = .next t) :
    (s.nextTurn = .reset ∧ t = s.dropTurn.afterReset) ∨
      (s.hazard = none ∧
        ((s.nextTurn = .engine ∧ s.busy = false ∧ t = s.dropTurn) ∨
          (s.nextTurn = .engine ∧ s.busy = true ∧ runPending s.dropTurn = .next t) ∨
          ∃ x, s.nextTurn = .host x ∧ hostTurn x s.dropTurn = .next t)) := by
  rcases takeTurn_eq_next h with h | ⟨h0, ⟨h1, h2⟩ | h1⟩
  · exact .inl h
  · rcases engineTurn_eq_next h2 with ⟨h3, h4⟩ | ⟨h3, h4⟩
    · exact .inr ⟨h0, .inl ⟨h1, h3, h4⟩⟩
    · exact .inr ⟨h0, .inr (.inl ⟨h1, h3, h4⟩)⟩
  · exact .inr ⟨h0, .inr (.inr h1)⟩

end Sys2Proof.Machine
end

