-- ==== Sys2Proof/Laws/View.lean ====
section
/-! SUPPORT. The commands read no store byte but those below STORELEN: on two states that agree there every shared
operation answers alike (20_memory.md R48). -/

namespace Sys2Proof.Machine

open Sys2Proof.Safety

/-- Two states that agree in all but the store, and in the bytes below STORELEN whether or not a buffer exists. -/
def Agree (s s' : State) : Prop :=
  s' = s.setStore s'.store ∧ ∀ a < s.storelen.toNat, s'.store.read a = s.store.read a

/-- Two bodies that answer alike. -/
def BodyAlike (r r' : Except Fault State) : Prop :=
  (∀ t, r = .ok t → ∃ t', r' = .ok t' ∧ Agree t t') ∧ ∀ f, r = .error f → r' = .error f

theorem Agree.sameView {s s' : State} (h : Agree s s') : SameView s s' :=
  ⟨h.1, fun _ => h.2⟩

theorem agree_of_sameView {s s' : State} (hv : s.valid = true) (h : SameView s s') : Agree s s' :=
  ⟨h.1, h.2 hv⟩

theorem memRead_agree {s s' : State} (h : Agree s s') (a : Nat) : memRead a s' = memRead a s := by
  obtain ⟨e, hr⟩ := h
  have hin : s'.inStore a = s.inStore a := by rw [e]; rfl
  unfold memRead
  rw [hin]
  by_cases ha : s.inStore a = true
  · rw [hr a ((State.inStore_iff s a).1 ha).1]
  · simp [ha]

theorem memWrite_agree {s s' : State} (h : Agree s s') (a : Nat) (v : Byte) :
    BodyAlike (memWrite a v s) (memWrite a v s') := by
  obtain ⟨e, hr⟩ := h
  have hin : s'.inStore a = s.inStore a := by rw [e]; rfl
  unfold memWrite
  rw [hin]
  by_cases ha : s.inStore a = true
  · refine ⟨fun t ht => ?_, fun f hf => by simp [ha] at hf⟩
    simp only [ha, if_true, Except.ok.injEq] at ht
    subst ht
    refine ⟨s'.setStore (s'.store.write a v), by simp [ha], by rw [e]; rfl, fun b hb => ?_⟩
    simp only [State.setStore_store, Memory.read_write]
    rw [hr b hb]
  · exact ⟨fun t ht => by simp [ha] at ht, fun f hf => by simpa [ha] using hf⟩

theorem readBytes_agree {s s' : State} (h : Agree s s') (as : List Nat) : readBytes as s' = readBytes as s := by
  induction as with
  | nil => rfl
  | cons a as ih => simp only [readBytes, memRead_agree h, ih]

theorem draw_agree {s s' : State} (h : Agree s s') (x y : Nat) (c : Mono) :
    BodyAlike (draw x y c s) (draw x y c s') := by
  have hp : s'.pixelAddress x y = s.pixelAddress x y := by rw [h.1]; rfl
  unfold draw drawByte
  rw [hp, memRead_agree h]
  cases memRead (s.pixelAddress x y).index s with
  | error f => exact ⟨fun t ht => by simp at ht, fun g hg => hg⟩
  | ok v => exact memWrite_agree h _ _

theorem drawAll_agree {s s' : State} (h : Agree s s') (ps : List PixelWrite) :
    BodyAlike (drawAll ps s) (drawAll ps s') := by
  induction ps generalizing s s' with
  | nil =>
    refine ⟨fun t ht => ?_, fun f hf => by simp [drawAll] at hf⟩
    simp only [drawAll, Except.ok.injEq] at ht
    subst ht
    exact ⟨s', rfl, h⟩
  | cons p ps ih =>
    obtain ⟨h1, h2⟩ := draw_agree h p.x p.y p.c
    unfold drawAll
    cases hd : draw p.x p.y p.c s with
    | error f => exact ⟨fun t ht => by simp at ht, fun g hg => by rw [h2 f hd]; exact hg⟩
    | ok u =>
      obtain ⟨u', hu', hu⟩ := h1 u hd
      rw [hu']
      exact ih hu

/-- The loop of UPDATE and WDATA answers alike. -/
theorem drawRect_agree {s s' : State} (h : Agree s s') (r : Rect) : BodyAlike (drawRect r s) (drawRect r s') := by
  have hp : clampedPixels r s' = clampedPixels r s := by rw [h.1]; rfl
  unfold drawRect
  rw [hp]
  exact drawAll_agree h _

/-- A construction writes every byte of the buffer it installs, whatever the store held before (10_state.md R38). -/
theorem build_agree {o : Orientation} {bytes : List Byte} {s s' : State} (e : s' = s.setStore s'.store)
    (hl : bytes.length = s.requiredOperand o) (hc : s.requiredOperand o ≤ s.cfg.storeCap.val) :
    ∃ u u', build o bytes s = .ok u ∧ build o bytes s' = .ok u' ∧ Agree u u' := by
  have hl' : bytes.length = s'.requiredOperand o := by rw [e]; exact hl
  have hc' : s'.requiredOperand o ≤ s'.cfg.storeCap.val := by rw [e]; exact hc
  obtain ⟨u, hu⟩ := build_of_fits hl hc
  obtain ⟨u', hu'⟩ := build_of_fits hl' hc'
  obtain ⟨h1, h2⟩ := build_eq_ok hu
  obtain ⟨h1', h2'⟩ := build_eq_ok hu'
  refine ⟨u, u', hu, hu', ?_, fun a ha => ?_⟩
  · rw [h1, h1', e]
    rfl
  · have hs : u.storelen.toNat = s.requiredOperand o := by
      rw [h1]
      simp [requiredOperand_toNat hc, -BitVec.toNat_ofNat]
    rw [h2 a, h2' a, if_pos (by omega), if_pos (by omega)]

end Sys2Proof.Machine
end

