-- ==== Sys2Proof/Machine/Assembly.lean ====
section
/-! DEFINITION. The notation for host programs (30_encoding.md R79 to R81): mnemonics, the pseudo-instructions and their
expansions into turns, and the listing form. It names host turns only; the machine does not depend on it. -/

namespace Sys2Proof.Machine

/-- The command mnemonics (30_encoding.md R79, opcode_table.json). -/
def mnemonic : Instr → String
  | .elen => "elen"
  | .baddrH => "baddr.h"
  | .baddrV => "baddr.v"
  | .norm => "norm"
  | .newH => "new.h"
  | .newV => "new.v"
  | .wdataH => "wdata.h"
  | .wdataV => "wdata.v"
  | .wpackH => "wpack.h"
  | .wpackV => "wpack.v"
  | .update => "update"
  | .extract => "extract"
  | .asvec => "asvec"

/-- A line of a host program (30_encoding.md R79, R80). The number of STATUS reads a `wait` performs before the command
completes is open (93_implementation_defined.md section 3), so it is an argument (log entry 13). -/
inductive Line where
  | transaction (t : Transaction)
  | command (i : Instr)
  | cmd (word : Word)
  | rect (x y w h : Word)
  | dims (w h : Word)
  | wait (busyReads : Nat)
  | run (i : Instr) (busyReads : Nat)
  deriving DecidableEq, Repr

/-- `wr <reg>, <imm32>` for a register by name. -/
def wrTurn (r : Reg) (v : Word) : Turn :=
  .host (.wr (regIndex r) v)

/-- `rd <reg>` for a register by name. -/
def rdTurn (r : Reg) : Turn :=
  .host (.rd (regIndex r))

/-- `wait`: STATUS is read while BUSY = 1, the engine completes the command, and STATUS is read once more (30_encoding.md R80). -/
def waitTurns (busyReads : Nat) : List Turn :=
  List.replicate busyReads (rdTurn .status) ++ [.engine, rdTurn .status]

/-- The expansion of a line (30_encoding.md R80). -/
def expand : Line → List Turn
  | .transaction t => [.host t]
  | .command i => [wrTurn .cmd (encode i)]
  | .cmd v => [wrTurn .cmd v]
  | .rect x y w h => [wrTurn .opx x, wrTurn .opy y, wrTurn .opw w, wrTurn .oph h]
  | .dims w h => [wrTurn .opw w, wrTurn .oph h]
  | .wait n => waitTurns n
  | .run i n => wrTurn .cmd (encode i) :: waitTurns n

/-- A hexadecimal digit. -/
def hexDigit (n : Nat) : Char :=
  ['0', '1', '2', '3', '4', '5', '6', '7', '8', '9', 'A', 'B', 'C', 'D', 'E', 'F'].getD (n % 16) '0'

/-- `n` as that many hexadecimal digits, the most significant first. -/
def hexDigits : Nat → Nat → List Char
  | 0, _ => []
  | k + 1, n => hexDigit (n / 16 ^ k) :: hexDigits k n

/-- `n` as a hexadecimal string. -/
def hex (digits n : Nat) : String :=
  String.ofList (hexDigits digits n)

/-- The listing form of a transaction (30_encoding.md R81). -/
def listing : Transaction → String
  | .wr i v => "WR " ++ hex 2 i.toNat ++ " <- " ++ hex 8 v.toNat
  | .rd i => "RD " ++ hex 2 i.toNat
  | .loadin bytes => "LOADIN [" ++ String.intercalate " " (bytes.map fun b => hex 2 b.toNat) ++ "]"
  | .readout => "READOUT"

end Sys2Proof.Machine
end

