-- ==== Sys2Proof/Tests/Slice0.lean ====
section
/-! SUPPORT. Tests: each check of WellFormed refuses a term, words written out bit by bit from spec/opcode_table.json
decode to their commands, one-step results from spec/95_test_vectors.md (each names its vector), and for every obligation
with hypotheses a state that meets them all. -/

namespace Sys2Proof.Tests

open Sys2Proof.Machine Sys2Proof.Safety

/-! ### Helpers -/

/-- After reset, with STORE_CAP = IN_CAP = 64, as 95_test_vectors.md assumes. -/
def base : State := { State.reset with cfg := { storeCap := 64, inCap := 64 } }

/-- A store that holds those bytes from address 0 up. -/
def cells (bytes : List Byte) : Memory := bytes.zipIdx.map fun p => (p.2, p.1)

/-- The 11x3 Horizontal buffer of V-L1-6. -/
def bufH : State :=
  { base with
    valid := true, orient := .horizontal, bitord := .msbFirst, width := 11, height := 3, eightlen := 2, storelen := 6
    store := cells [0x55, 0x40, 0xAA, 0xA0, 0x55, 0x40] }

/-- The 3x10 Vertical buffer after V-L2-UPD-6. -/
def bufV : State :=
  { base with
    valid := true, orient := .vertical, bitord := .lsbFirst, width := 3, height := 10, eightlen := 2, storelen := 6
    store := cells [0x40, 0x80, 0x00, 0x02, 0x02, 0x03] }

/-- The 10x2 Horizontal zero buffer of V-L2-UPD-1. -/
def bufZ : State :=
  { base with
    valid := true, orient := .horizontal, bitord := .msbFirst, width := 10, height := 2, eightlen := 2, storelen := 4
    store := cells [0, 0, 0, 0] }

/-- The operand registers set. -/
def ops (x y w h : Word) (s : State) : State := { s with opx := x, opy := y, opw := w, oph := h }

/-- INBUF set. -/
def load (bytes : List Byte) (s : State) : State := { s with inbuf := bytes }

/-- That turn next. -/
def turn (x : Turn) (s : State) : State := { s with schedule := [x] }

/-- That command word in flight. -/
def issued (v : Word) (s : State) : State := { s with cmd := v, pending := v, busy := true }

/-- The next state an outcome holds. -/
def after : Host.Outcome State Fault Refusal → Option State
  | .next t => some t
  | .fault _ => none
  | .refused _ => none

/-- The next state an outcome holds, to name a witness by. -/
def result (o : Host.Outcome State Fault Refusal) : State := (after o).getD State.reset

theorem next_result {o : Host.Outcome State Fault Refusal} (h : (after o).isSome = true) : o = .next (result o) := by
  cases o with
  | next t => rfl
  | fault f => simp [after] at h
  | refused r => simp [after] at h

theorem illegal {v : Word} {e : Illegal} (h : decode v = .error e) : ¬∃ i, decode v = .ok i := by
  simp [h]

/-- RES0 to RES3 and CODE after a command. -/
def res (i : Instr) (s : State) : Option (List Word × BitVec 4) :=
  (after (exec i s)).map fun t => ([t.res0, t.res1, t.res2, t.res3], t.code)

/-- The bytes of the buffer and CODE after a command. -/
def bytes (i : Instr) (s : State) : Option (List (Option Byte) × BitVec 4) :=
  (after (exec i s)).map fun t => ((List.range t.storelen.toNat).map t.store.read, t.code)

/-- RES0 to RES3 and OUTBUF after a command. -/
def read (i : Instr) (s : State) : Option (List Word × List Byte) :=
  (after (exec i s)).map fun t => ([t.res0, t.res1, t.res2, t.res3], t.outbuf)

/-! ### WellFormed refuses an ill-formed term for each check -/

theorem test_wf_reserved_bit : WellFormed.reservedClear 0x00000020 = false ∧ WellFormed.word 0x00000027 = false := by decide

theorem test_wf_opcode_zero : WellFormed.opcodeAssigned 0x00000000 = false := by decide

theorem test_wf_opcode_ten : WellFormed.opcodeAssigned 0x0000000A = false ∧ WellFormed.word 0x0000000F = false := by decide

theorem test_wf_orientation : WellFormed.orientationAllowed 0x00000011 = false ∧ WellFormed.word 0x00000019 = false := by decide

theorem test_wf_legal : WellFormed.word 0x00000012 = true ∧ WellFormed.word 0x00000009 = true := by decide

theorem test_wf_loadin_over_capacity :
    WellFormed.transaction base.cfg (.loadin (List.replicate 65 0)) = false ∧
      WellFormed.transaction base.cfg (.loadin (List.replicate 64 0)) = true := by decide

/-! ### Words written out from the encodings: RSV in 27 bits, O in one, OP in four -/

theorem test_decode_elen : decode 0b000000000000000000000000000_0_0001 = .ok .elen := by decide

theorem test_decode_baddrH : decode 0b000000000000000000000000000_0_0010 = .ok .baddrH := by decide

theorem test_decode_baddrV : decode 0b000000000000000000000000000_1_0010 = .ok .baddrV := by decide

theorem test_decode_norm : decode 0b000000000000000000000000000_0_0011 = .ok .norm := by decide

theorem test_decode_newH : decode 0b000000000000000000000000000_0_0100 = .ok .newH := by decide

theorem test_decode_newV : decode 0b000000000000000000000000000_1_0100 = .ok .newV := by decide

theorem test_decode_wdataH : decode 0b000000000000000000000000000_0_0101 = .ok .wdataH := by decide

theorem test_decode_wdataV : decode 0b000000000000000000000000000_1_0101 = .ok .wdataV := by decide

theorem test_decode_wpackH : decode 0b000000000000000000000000000_0_0110 = .ok .wpackH := by decide

theorem test_decode_wpackV : decode 0b000000000000000000000000000_1_0110 = .ok .wpackV := by decide

theorem test_decode_update : decode 0b000000000000000000000000000_0_0111 = .ok .update := by decide

theorem test_decode_extract : decode 0b000000000000000000000000000_0_1000 = .ok .extract := by decide

theorem test_decode_asvec : decode 0b000000000000000000000000000_0_1001 = .ok .asvec := by decide

/-- V-L2-DEC-1 to V-L2-DEC-3. -/
theorem test_decode_opcode : decode 0x0 = .error .opcode ∧ decode 0xA = .error .opcode ∧ decode 0xF = .error .opcode := by
  decide

/-- V-L2-DEC-4 and V-L2-DEC-5. -/
theorem test_decode_orientation :
    decode 0x11 = .error .orientation ∧ decode 0x13 = .error .orientation ∧ decode 0x17 = .error .orientation ∧
      decode 0x18 = .error .orientation ∧ decode 0x19 = .error .orientation := by decide

/-- V-L2-DEC-7, V-L2-DEC-8 and V-L2-DEC-11. -/
theorem test_decode_reserved :
    decode 0x20 = .error .reservedBits ∧ decode 0x100 = .error .reservedBits ∧
      decode 0x80000002 = .error .reservedBits ∧ decode 0x27 = .error .reservedBits := by decide

/-- A table row of 32 bits is the command word itself. -/
theorem test_table_word : decodeTableWord 32 0x12 = some .baddrV ∧ decodeTableWord 32 0x20 = none := by decide

/-! ### One step per command -/

/-- V-L1-1. -/
theorem test_elen_multiple : res .elen (ops 0 0 16 0 base) = some ([2, 0, 0, 0], 0) := by decide

/-- V-L2-ELEN-9. -/
theorem test_elen_largest : res .elen (ops 0 0 0xFFFFFFFF 0 base) = some ([0x20000000, 0, 0, 0], 0) := by decide

/-- V-L2-BADDR-5. -/
theorem test_baddrH : res .baddrH (ops 9 2 2 0 base) = some ([5, 0x40, 1, 6], 0) := by decide

/-- V-L2-BADDR-8. -/
theorem test_baddrH_reduced :
    res .baddrH (ops 0 0xFFFFFFFF 0xFFFFFFFF 0 base) = some ([1, 0x80, 0, 7], 0) := by decide

/-- V-L2-BADDR-13. -/
theorem test_baddrV : res .baddrV (ops 2 9 3 0 base) = some ([5, 0x02, 1, 1], 0) := by decide

/-- V-L2-BADDR-15. -/
theorem test_baddrV_reduced :
    res .baddrV (ops 0 0xFFFFFFFF 0xFFFFFFFF 0 base) = some ([0xE0000001, 0x80, 7, 7], 0) := by decide

/-- V-L2-NORM-3. -/
theorem test_norm_empty : res .norm (ops 8 0 0 0 base) = some ([1, 0, 0, 0], 0) := by decide

/-- V-L2-NORM-14. -/
theorem test_norm_exact :
    res .norm (ops 0xFFFFFFFF 0 0xFFFFFFFF 0 base) = some ([0x1FFFFFFF, 0x20000001, 0, 0], 0) := by decide

/-- V-L2-NEW-2. -/
theorem test_newH_zero_width :
    bytes .newH (ops 0 0 0 5 base) = some ([some 0, some 0, some 0, some 0, some 0], 0) := by decide

/-- V-L2-NEW-7. -/
theorem test_newH_over_capacity :
    (after (exec .newH (ops 0 0 100 8 base))).map (fun t => (t.code, t.valid, t.width)) = some (1, false, 0) := by decide

/-- V-L2-NEW-4. -/
theorem test_newV_zero_width :
    (after (exec .newV (ops 0 0 0 5 base))).map (fun t => (t.configWord, t.eightlen, t.storelen)) = some (7, 1, 0) := by
  decide

/-- V-L2-NEW-5. -/
theorem test_newV_zero_height :
    bytes .newV (ops 0 0 5 0 base) = some ([some 0, some 0, some 0, some 0, some 0], 0) := by decide

/-- V-L1-3. -/
theorem test_wdataH :
    bytes .wdataH (ops 0 0 8 3 (load
      [1, 1, 0, 0, 0, 0, 1, 0, 1, 0, 0, 0, 1, 0, 0, 1, 0, 0, 0, 0, 0, 0, 0, 0] base)) =
      some ([some 0xC2, some 0x89, some 0x00], 0) := by decide

/-- V-L2-WDATA-3. -/
theorem test_wdataH_mono : bytes .wdataH (ops 0 0 3 1 (load [5, 0, 0xFF] base)) = some ([some 0xA0], 0) := by decide

/-- V-L1-4. -/
theorem test_wdataV :
    bytes .wdataV (ops 0 0 8 3 (load
      [1, 1, 0, 0, 0, 0, 1, 0, 1, 0, 0, 0, 1, 0, 0, 1, 0, 0, 0, 0, 0, 0, 0, 0] base)) =
      some ([some 0x03, some 0x01, some 0x00, some 0x00, some 0x02, some 0x00, some 0x01, some 0x02], 0) := by decide

/-- 42_construction.md R152 by hand: a length that is not W * H. -/
theorem test_wdataV_length : bytes .wdataV (ops 0 0 2 2 (load [1, 2, 3] base)) = some ([], 1) := by decide

/-- V-L2-WPACK-1. -/
theorem test_wpackH_padding :
    bytes .wpackH (ops 0 0 3 2 (load [0xFF, 0xFF] base)) = some ([some 0xFF, some 0xFF], 0) := by decide

/-- V-L2-WPACK-2. -/
theorem test_wpackH_length : bytes .wpackH (ops 0 0 9 1 (load [1, 2, 3] base)) = some ([], 1) := by decide

/-- 42_construction.md R153 by hand: one page of 3 columns. -/
theorem test_wpackV : bytes .wpackV (ops 0 0 3 2 (load [7, 8, 9] base)) = some ([some 7, some 8, some 9], 0) := by decide

/-- 42_construction.md R153 by hand: a 3x10 Vertical buffer requires 6 bytes. -/
theorem test_wpackV_length : bytes .wpackV (ops 0 0 3 10 (load [7, 8, 9] base)) = some ([], 1) := by decide

/-- V-L2-UPD-1: clipped on the right, the source's stride that of the request. -/
theorem test_update_clipped :
    bytes .update (ops 8 0 4 2 (load [1, 0, 1, 1, 0, 1, 1, 1] bufZ)) =
      some ([some 0x00, some 0x80, some 0x00, some 0x40], 0) := by decide

/-- V-L2-UPD-7. -/
theorem test_update_clears :
    bytes .update (ops 2 9 1 1 (load [0] bufV)) =
      some ([some 0x40, some 0x80, some 0x00, some 0x02, some 0x02, some 0x01], 0) := by decide

/-- V-L2-EXT-1. -/
theorem test_extract_edge : read .extract (ops 11 0 5 3 bufH) = some ([1, 0, 1, 3], [0x40, 0xA0, 0x40]) := by decide

/-- V-L2-EXT-9. -/
theorem test_extract_pages :
    read .extract (ops 1 7 2 2 bufV) = some ([1, 0, 2, 2], [0x80, 0x00, 0x02, 0x03]) := by decide

/-- 41_transfer.md R131 by hand on the buffer of V-L1-6. -/
theorem test_asvec : read .asvec bufH = some ([0, 0, 0, 0], [0x55, 0x40, 0xAA, 0xA0, 0x55, 0x40]) := by decide

/-- V-L2-ASV-5. -/
theorem test_asvec_no_buffer : (after (exec .asvec base)).map (fun t => (t.code, t.outbuf)) = some (2, []) := by decide

/-! ### The step, the host's port and the notation -/

/-- V-L2-DEC-9: the placed word runs in the very next step. -/
theorem test_placed_word :
    (after (step (State.reset.withFetchWord 32 0x12))).map (fun t => (t.res1, t.busy, t.code)) = some (1, false, 0) := by
  decide

/-- V-L2-HAZ-1: STATUS while a command is in flight and the last one failed. -/
theorem test_status_busy : (issued 0x01 { base with code := 1 }).statusWord = 0x11 := by decide

/-- V-L2-HAZ-2. -/
theorem test_hazard_write :
    (after (step (turn (.host (.wr 0x04 5)) (issued 0x01 base)))).map (·.hazard) = some (some (.write 0x04)) := by decide

/-- V-L2-RST-3. -/
theorem test_read_only_write :
    (after (step (turn (.host (.wr 0x0B 5)) base))).map (fun t => (t.width, t.height)) = some (0, 0) := by decide

/-- 95_test_vectors.md P1, lines 2 and 3. -/
theorem test_notation :
    expand (.dims 8 3) = [.host (.wr 0x04 8), .host (.wr 0x05 3)] ∧
      expand (.command .wdataH) = [.host (.wr 0x00 0x00000005)] ∧ listing (.wr 0x04 8) = "WR 04 <- 00000008" := by decide

/-! ### A witness for every obligation with hypotheses -/

theorem witness_DecodeAndEncodeAgree : ∃ v i, decode v = .ok i := ⟨0x12, .baddrV, by decide⟩

theorem witness_LegalWordsAreTheThirteen :
    (¬∃ i, decode (issued 0x0A base).pending = .ok i) ∧ (¬∃ i, decode (issued 0x11 base).pending = .ok i) ∧
      ¬∃ i, decode (issued 0x20 base).pending = .ok i :=
  ⟨illegal (e := .opcode) (by decide), illegal (e := .orientation) (by decide), illegal (e := .reservedBits) (by decide)⟩

theorem witness_StepRunsDecodedCommand :
    let s := issued 0x09 bufH
    s.hazard = none ∧ s.busy = true ∧ s.nextTurn = .engine ∧ decode s.pending = .ok .asvec := by decide

theorem witness_PlacedWordRunsNext :
    decodeTableWord 32 0x01 = some .elen ∧ decodeTableWord 32 0x16 = some .wpackV := by decide

theorem witness_IdleEngineKeepsState : base.hazard = none ∧ base.busy = false ∧ base.nextTurn = .engine := by decide

theorem witness_WaitingHostSeesCompletion :
    let s := { issued 0x09 bufH with schedule := [.host (.rd 0x01), .host (.rd 0x01)] }
    GoodBuffer s ∧ s.hazard = none ∧ s.busy = true ∧ ∀ x ∈ s.schedule, x = .host (.rd 0x01) := by decide

theorem witness_CmdWriteIssuesCommand :
    let s := turn (.host (.wr 0x00 0x20)) base
    s.hazard = none ∧ s.busy = false ∧ s.nextTurn = .host (.wr 0x00 0x20) := by decide

theorem witness_OperandWritesSetTheirRegister :
    base.hazard = none ∧ base.busy = false ∧
      (turn (.host (.wr 0x02 7)) base).nextTurn = .host (.wr 0x02 7) ∧
      (turn (.host (.wr 0x03 7)) base).nextTurn = .host (.wr 0x03 7) ∧
      (turn (.host (.wr 0x04 7)) base).nextTurn = .host (.wr 0x04 7) ∧
      (turn (.host (.wr 0x05 7)) base).nextTurn = .host (.wr 0x05 7) := by decide

theorem witness_ReadOnlyWritesIgnoredReservedReadsZero :
    (∀ i ∈ ([0x01, 0x06, 0x10, 0x11, 0xFF] : List (BitVec 8)),
      let s := turn (.host (.wr i 5)) base
      s.hazard = none ∧ s.busy = false ∧ s.nextTurn = .host (.wr i 5) ∧ (i = 0x01 ∨ 0x06 ≤ i.toNat)) ∧
    ∀ i ∈ ([0x11, 0xFF] : List (BitVec 8)),
      let s := turn (.host (.rd i)) base
      s.hazard = none ∧ s.busy = false ∧ s.nextTurn = .host (.rd i) ∧ 0x11 ≤ i.toNat := by decide

theorem witness_RegisterReadsFollowTheMap (i : BitVec 8) :
    let s := turn (.host (.rd i)) bufV
    s.hazard = none ∧ s.busy = false ∧ s.nextTurn = .host (.rd i) := ⟨rfl, rfl, rfl⟩

theorem witness_StatusReadAlwaysAllowed :
    let s := turn (.host (.rd 0x01)) base
    let b := turn (.host (.rd 0x01)) (issued 0x01 base)
    s.hazard = none ∧ s.nextTurn = .host (.rd 0x01) ∧ b.hazard = none ∧ b.busy = true ∧
      b.nextTurn = .host (.rd 0x01) := by decide

theorem witness_LoadinReplacesInbuf :
    let full := List.replicate 64 (0 : Byte)
    let s := turn (.host (.loadin full)) base
    let t := turn (.host (.loadin (0 :: full))) base
    (s.hazard = none ∧ s.nextTurn = .host (.loadin full) ∧ s.busy = false ∧ full.length ≤ s.cfg.inCap.val) ∧
      t.hazard = none ∧ t.nextTurn = .host (.loadin (0 :: full)) ∧ t.cfg.inCap.val < (0 :: full).length := by decide

theorem witness_ReadoutReturnsOutbuf :
    let s := turn (.host .readout) { base with outbuf := [1] }
    s.hazard = none ∧ s.busy = false ∧ s.nextTurn = .host .readout := by decide

theorem witness_HostHazardSetsTheMark :
    ∀ x ∈ ([.wr 0x00 1, .wr 0x04 5, .wr 0xFF 0, .rd 0x00, .rd 0x02, .loadin [1], .loadin (List.replicate 64 0),
        .readout] : List Transaction),
      let s := turn (.host x) (issued 0x01 base)
      s.hazard = none ∧ s.busy = true ∧ s.nextTurn = .host x ∧ x ≠ .rd 0x01 ∧
        ∀ bytes ∈ [[1], List.replicate 64 (0 : Byte)], x = .loadin bytes → bytes.length ≤ s.cfg.inCap.val := by decide

theorem witness_HazardStopsAllButReset :
    let s := { base with hazard := some (.write 0x04) }
    s.hazard = some (.write 0x04) ∧ s.nextTurn ≠ .reset ∧ (turn .reset s).hazard = some (.write 0x04) ∧
      (turn .reset s).nextTurn = .reset := by decide

theorem witness_OnlyBusyTransactionsSetTheMark :
    let s := turn (.host .readout) (issued 0x01 base)
    s.hazard = none ∧ step s = .next (result (step s)) ∧ (result (step s)).hazard = some .readout :=
  ⟨by decide, next_result (by decide), by decide⟩

theorem witness_ResetTurnGivesResetValues : (turn .reset (issued 0x04 bufH)).nextTurn = .reset := by decide

theorem witness_EveryStepKeepsInv :
    let s := ops 6 1 3 1 (load [1, 0, 1] (issued 0x07 bufH))
    Inv s ∧ step s = .next (result (step s)) := ⟨by decide, next_result (by decide)⟩

theorem witness_EveryCommandCompletes : GoodBuffer base ∧ GoodBuffer bufH ∧ GoodBuffer bufV := by decide

theorem witness_GoodStatesNeverFault :
    let s := issued 0x08 bufV
    let t := turn (.host (.loadin (List.replicate 65 0))) base
    (Inv s ∧ s.hazard = none) ∧ Inv t ∧ t.hazard = none := by decide

theorem witness_FailedCommandChangesOnlyCode :
    let s := issued 0x07 base
    runPending s = .next (result (runPending s)) ∧ (result (runPending s)).code ≠ 0 :=
  ⟨next_result (by decide), by decide⟩

theorem witness_EngineWritesNoHostState :
    let s := issued 0x09 bufH
    runPending s = .next (result (runPending s)) := next_result (by decide)

theorem witness_CommandsWriteOnlyTheirState :
    (let s := ops 0 0 8 2 base; exec .newH s = .next (result (exec .newH s))) ∧
    exec .asvec bufH = .next (result (exec .asvec bufH)) ∧
    (let s := ops 10 2 9 9 (load (List.replicate 81 1) bufH)
     exec .update s = .next (result (exec .update s)) ∧ (result (exec .update s)).store ≠ s.store ∧
       ∀ dx < min s.opw.toNat (s.width.toNat - s.opx.toNat), ∀ dy < min s.oph.toNat (s.height.toNat - s.opy.toNat),
         5 ≠ (s.pixelAddress (s.opx.toNat + dx) (s.opy.toNat + dy)).index ∨
           6 ≠ (s.pixelAddress (s.opx.toNat + dx) (s.opy.toNat + dy)).phys) :=
  ⟨next_result (by decide), next_result (by decide), next_result (by decide), by decide, by decide⟩

theorem witness_CodesComeFromTheirCommands :
    ∀ v ∈ ([0x01, 0x04, 0x07, 0x00] : List Word),
      let s := ops 0 0 100 8 (issued v base)
      runPending s = .next (result (runPending s)) := by
  intro v hv
  simp only [List.mem_cons, List.not_mem_nil, or_false] at hv
  rcases hv with rfl | rfl | rfl | rfl <;> exact next_result (by decide)

theorem witness_OutcomesHaveTheirPriority :
    (¬∃ i, decode (issued 0x27 base).pending = .ok i) ∧
    (let s := load [1, 2, 3] (issued 0x07 base)
     decode s.pending = .ok .update ∧ lacksBuffer .update s = true ∧ lengthFails .update s = true) ∧
    (let s := ops 12 0 1 1 (load [1, 2] (issued 0x07 bufH))
     decode s.pending = .ok .update ∧ lacksBuffer .update s = false ∧ lengthFails .update s = true) ∧
    (let s := ops 12 0 1 1 (load [1] (issued 0x07 bufH))
     decode s.pending = .ok .update ∧ lacksBuffer .update s = false ∧ lengthFails .update s = false ∧
       s.width.toNat < s.opx.toNat) ∧
    (let s := ops 0 4 1 1 (issued 0x08 bufH)
     decode s.pending = .ok .extract ∧ lacksBuffer .extract s = false ∧ lengthFails .extract s = false ∧
       s.height.toNat < s.opy.toNat) ∧
    (let s := ops 0 0 8 64 (issued 0x04 base)
     decode s.pending = .ok .newH ∧ lacksBuffer .newH s = false ∧ lengthFails .newH s = false ∧
       runPending s = .next (result (runPending s))) :=
  ⟨illegal (e := .reservedBits) (by decide), by decide, by decide, by decide, by decide, by decide, by decide,
    by decide, next_result (by decide +kernel)⟩

theorem witness_ValidStaysUntilReset :
    bufH.valid = true ∧ step bufH = .next (result (step bufH)) ∧ bufH.nextTurn ≠ .reset :=
  ⟨by decide, next_result (by decide), by decide⟩

theorem witness_OutbufChangesOnlyByReaders :
    let s := issued 0x09 bufH
    step s = .next (result (step s)) ∧ (result (step s)).outbuf ≠ s.outbuf := ⟨next_result (by decide), by decide⟩

theorem witness_CapacitiesNeverChange : step bufH = .next (result (step bufH)) := next_result (by decide)

/-- Without a buffer any two stores; with one, stores that differ at STORELEN. -/
theorem witness_StoreBeforeConstructionIsUnobservable :
    (let s := ops 0 0 8 2 base
     SameView s { s with store := [(0, 7), (5, 9)] } ∧ s.valid = false) ∧
    (let s := ops 7 1 10 9 bufH
     SameView s { s with store := s.store ++ [(6, 0x77)] } ∧ s.valid = true ∧
       s.store ≠ s.store ++ [(6, 0x77)]) := by decide

theorem witness_EightLengthProperties : 1 ≤ eightLength 0 ∧ 8 * (eightLength 1 - 1) < 1 ∧ 8 * (eightLength 9 - 1) < 9 := by
  decide

theorem witness_PixelsOwnTheirBits :
    bufH.valid = true ∧ BufferInv bufH ∧ 10 < bufH.width.toNat ∧ 2 < bufH.height.toNat ∧
      bufV.valid = true ∧ BufferInv bufV ∧ 2 < bufV.width.toNat ∧ 9 < bufV.height.toNat := by decide

theorem witness_SpanIsMinimalAndCovering : 1 ≤ (1 : Nat) ∧ (normalizeSpan 7 2).length = 2 ∧ (normalizeSpan 7 1).length = 1 := by
  decide

theorem witness_DrawChangesOneBit :
    bufH.valid = true ∧ GoodBuffer bufH ∧ 10 < bufH.width.toNat ∧ 2 < bufH.height.toNat := by decide

/-- V-L2-NEW-8 and V-L2-NEW-9: the boundary of the capacity, in both orientations. -/
theorem witness_NewBuildsZeroBuffer :
    (let s := ops 0 0 8 65 base; s.cfg.storeCap.val < eightLength s.opw.toNat * s.oph.toNat) ∧
    (let s := ops 0 0 65 8 base; s.cfg.storeCap.val < eightLength s.oph.toNat * s.opw.toNat) ∧
    (let s := ops 0 0 8 64 base; eightLength s.opw.toNat * s.oph.toNat ≤ s.cfg.storeCap.val) ∧
    (let s := ops 0 0 64 8 base; eightLength s.oph.toNat * s.opw.toNat ≤ s.cfg.storeCap.val) := by decide

theorem witness_WdataHorizontalPacksPixels :
    let s := ops 0 0 9 2 (load (List.replicate 18 1) base)
    s.inbuf.length = s.opw.toNat * s.oph.toNat ∧ eightLength s.opw.toNat * s.oph.toNat ≤ s.cfg.storeCap.val ∧
      8 < s.opw.toNat ∧ 1 < s.oph.toNat ∧ s.inbuf[1 * s.opw.toNat + 8]? = some 1 := by decide

theorem witness_WdataVerticalPacksPixels :
    let s := ops 0 0 2 9 (load (List.replicate 18 1) base)
    s.inbuf.length = s.opw.toNat * s.oph.toNat ∧ eightLength s.oph.toNat * s.opw.toNat ≤ s.cfg.storeCap.val ∧
      1 < s.opw.toNat ∧ 8 < s.oph.toNat ∧ s.inbuf[8 * s.opw.toNat + 1]? = some 1 := by decide

theorem witness_WpackStoresBytesVerbatim :
    (let s := ops 0 0 9 1 (load [1, 2, 3] base)
     s.inbuf.length ≠ eightLength s.opw.toNat * s.oph.toNat ∧ s.inbuf.length ≠ eightLength s.oph.toNat * s.opw.toNat) ∧
    (let s := ops 0 0 9 1 (load [1, 2] base)
     s.inbuf.length = eightLength s.opw.toNat * s.oph.toNat ∧ s.inbuf.length ≤ s.cfg.storeCap.val) ∧
    (let s := ops 0 0 1 9 (load [1, 2] base)
     s.inbuf.length = eightLength s.oph.toNat * s.opw.toNat ∧ s.inbuf.length ≤ s.cfg.storeCap.val) := by decide

theorem witness_LengthErrorsAndTheirCauses :
    (∀ i ∈ ([.newH, .wdataH, .wpackH] : List Instr),
      let s := ops 0 0 8 65 base
      lacksBuffer i s = false ∧ lengthFails i s = true ∧ (after (exec i s)).map (·.code) = some 1) ∧
    (∀ i ∈ ([.newV, .wdataV, .wpackV] : List Instr),
      let s := ops 0 0 65 8 base
      lacksBuffer i s = false ∧ lengthFails i s = true ∧ (after (exec i s)).map (·.code) = some 1) ∧
    (let s := ops 0 0 2 2 (load [1, 2, 3] bufH)
     lacksBuffer .update s = false ∧ lengthFails .update s = true ∧ (after (exec .update s)).map (·.code) = some 1) := by
  decide

theorem witness_WdataEqualsNewThenUpdate :
    let s := ops 0 0 3 2 (load [1, 0, 1, 0, 1, 0] base)
    s.inbuf.length = s.opw.toNat * s.oph.toNat ∧ eightLength s.opw.toNat * s.oph.toNat ≤ s.cfg.storeCap.val ∧
      eightLength s.oph.toNat * s.opw.toNat ≤ s.cfg.storeCap.val := by decide

theorem witness_PackedRoundTrip :
    (let s := ops 0 0 9 1 (load [1, 2] base)
     exec .wpackH s = .next (result (exec .wpackH s)) ∧ (result (exec .wpackH s)).code = 0) ∧
    (let s := ops 0 0 1 9 (load [1, 2] base)
     exec .wpackV s = .next (result (exec .wpackV s)) ∧ (result (exec .wpackV s)).code = 0) ∧
    (let s := ops 0 0 9 1 base
     exec .newH s = .next (result (exec .newH s)) ∧ (result (exec .newH s)).code = 0) ∧
    (let s := ops 0 0 1 9 base
     exec .newV s = .next (result (exec .newV s)) ∧ (result (exec .newV s)).code = 0) :=
  ⟨⟨next_result (by decide), by decide⟩, ⟨next_result (by decide), by decide⟩, ⟨next_result (by decide), by decide⟩,
    next_result (by decide), by decide⟩

theorem witness_PackingEquivalence :
    (let s := ops 0 0 3 1 (load [5, 0, 0xFF] base)
     exec .wdataH s = .next (result (exec .wdataH s)) ∧ (result (exec .wdataH s)).code = 0 ∧
       ([0xA0] : List Byte).length = (result (exec .wdataH s)).storelen.toNat) ∧
    (let s := ops 0 0 1 3 (load [5, 0, 0xFF] base)
     exec .wdataV s = .next (result (exec .wdataV s)) ∧ (result (exec .wdataV s)).code = 0 ∧
       ([0x05] : List Byte).length = (result (exec .wdataV s)).storelen.toNat) :=
  ⟨⟨next_result (by decide), by decide, by decide⟩, next_result (by decide), by decide, by decide⟩

/-- A clipped rectangle, and one that starts at x = WIDTH and y = HEIGHT (90_conflicts.md C5). -/
theorem witness_UpdateWritesClampedRegion :
    (let s := ops 10 1 2 3 (load [1, 0, 1, 1, 0, 1] bufH)
     s.valid = true ∧ GoodBuffer s ∧ s.inbuf.length = s.opw.toNat * s.oph.toNat ∧
       s.opx.toNat ≤ s.width.toNat ∧ s.opy.toNat ≤ s.height.toNat) ∧
    (let s := ops 11 3 1 1 (load [1] bufH)
     s.valid = true ∧ GoodBuffer s ∧ s.inbuf.length = s.opw.toNat * s.oph.toNat ∧
       s.opx.toNat ≤ s.width.toNat ∧ s.opy.toNat ≤ s.height.toNat) := by decide

/-- The last pixel inside a rectangle that overruns both edges; the last pixel of a full buffer in both orientations. -/
theorem witness_UpdateReadsInsideInbuf :
    (let s := ops 10 1 2 3 (load [1, 0, 1, 1, 0, 1] bufH)
     s.inbuf.length = s.opw.toNat * s.oph.toNat ∧ s.valid = true ∧ s.rectOperand.outside s = false ∧
       0 < min s.opw.toNat (s.width.toNat - s.opx.toNat) ∧ 1 < min s.oph.toNat (s.height.toNat - s.opy.toNat) ∧
       ⟨10, 2, .one⟩ ∈ clampedPixels s.rectOperand s) ∧
    (let s := ops 0 0 3 2 (load [1, 0, 1, 0, 1, 0] base)
     s.inbuf.length = s.opw.toNat * s.oph.toNat ∧
       required .horizontal s.opw.toNat s.oph.toNat ≤ s.cfg.storeCap.val ∧
       required .vertical s.opw.toNat s.oph.toNat ≤ s.cfg.storeCap.val ∧ 2 < s.opw.toNat ∧ 1 < s.oph.toNat) := by decide

theorem witness_UpdateIsIdempotent :
    let s := ops 10 1 2 3 (load [1, 0, 1, 1, 0, 1] bufH)
    GoodBuffer s ∧ Memory.wf s.store = true ∧ exec .update s = .next (result (exec .update s)) :=
  ⟨by decide, by decide, next_result (by decide)⟩

theorem witness_UpdateKeepsPaddingAndOutside :
    let s := ops 2 9 1 1 (load [0] bufV)
    s.valid = true ∧ BufferInv s ∧ exec .update s = .next (result (exec .update s)) ∧
      0 < s.width.toNat ∧ 0 < s.height.toNat ∧ 0 < s.opx.toNat :=
  ⟨by decide, by decide, next_result (by decide), by decide, by decide, by decide⟩

theorem witness_NoBufferErrors :
    base.valid = false ∧ exec .update base = .next (result (exec .update base)) ∧
      (result (exec .update base)).code = 2 := ⟨by decide, next_result (by decide), by decide⟩

/-- V-L2-EXT-1 and V-L2-EXT-3: x = WIDTH, and y = HEIGHT. -/
theorem witness_ExtractHorizontalCopiesBytes :
    (let s := ops 11 0 5 3 bufH
     s.valid = true ∧ s.orient = .horizontal ∧ GoodBuffer s ∧ s.opx.toNat ≤ s.width.toNat ∧
       s.opy.toNat ≤ s.height.toNat) ∧
    (let s := ops 3 3 7 9 bufH
     s.valid = true ∧ s.orient = .horizontal ∧ GoodBuffer s ∧ s.opx.toNat ≤ s.width.toNat ∧
       s.opy.toNat ≤ s.height.toNat) := by decide

/-- V-L2-EXT-9 and V-L2-EXT-11: two pages, and x = WIDTH with y = HEIGHT. -/
theorem witness_ExtractVerticalCopiesBytes :
    (let s := ops 1 7 2 2 bufV
     s.valid = true ∧ s.orient = .vertical ∧ GoodBuffer s ∧ s.opx.toNat ≤ s.width.toNat ∧
       s.opy.toNat ≤ s.height.toNat) ∧
    (let s := ops 3 10 1 1 bufV
     s.valid = true ∧ s.orient = .vertical ∧ GoodBuffer s ∧ s.opx.toNat ≤ s.width.toNat ∧
       s.opy.toNat ≤ s.height.toNat) := by decide

/-- One pixel beyond the right edge, and one beyond the lower edge. -/
theorem witness_OutsideRectanglesAreNoOps :
    (let s := ops 12 0 1 1 (load [1] bufH)
     s.valid = true ∧ s.width.toNat < s.opx.toNat ∧ s.inbuf.length = s.opw.toNat * s.oph.toNat) ∧
    (let s := ops 0 4 1 1 (load [1] bufH)
     s.valid = true ∧ s.height.toNat < s.opy.toNat ∧ s.inbuf.length = s.opw.toNat * s.oph.toNat) := by decide

theorem witness_ExtractStaysInStore :
    let s := ops 7 2 10 1 bufH
    s.valid = true ∧ BufferInv s ∧ s.rectOperand.outside s = false ∧
      exec .extract s = .next (result (exec .extract s)) := ⟨by decide, by decide, by decide, next_result (by decide)⟩

theorem witness_ExtractCoversTheRequest :
    (let s := ops 7 1 10 9 bufH
     s.valid = true ∧ GoodBuffer s ∧ s.rectOperand.outside s = false ∧
       exec .extract s = .next (result (exec .extract s)) ∧
       s.opx.toNat ≤ 10 ∧ 10 < s.opx.toNat + s.opw.toNat ∧ 10 < s.width.toNat ∧
       s.opy.toNat ≤ 2 ∧ 2 < s.opy.toNat + s.oph.toNat ∧ 2 < s.height.toNat) ∧
    (let s := ops 1 7 2 3 bufV
     s.valid = true ∧ GoodBuffer s ∧ s.rectOperand.outside s = false ∧
       exec .extract s = .next (result (exec .extract s)) ∧
       s.opx.toNat ≤ 2 ∧ 2 < s.opx.toNat + s.opw.toNat ∧ 2 < s.width.toNat ∧
       s.opy.toNat ≤ 9 ∧ 9 < s.opy.toNat + s.oph.toNat ∧ 9 < s.height.toNat) :=
  ⟨⟨by decide, by decide, by decide, next_result (by decide), by decide⟩,
    by decide, by decide, by decide, next_result (by decide), by decide⟩

theorem witness_AsvecReturnsTheStore :
    base.valid = false ∧ bufH.valid = true ∧ GoodBuffer bufH ∧ bufV.valid = true ∧ GoodBuffer bufV := by decide

theorem witness_ReadersChangeNothingTheyRead :
    let s := ops 1 7 2 2 bufV
    exec .extract s = .next (result (exec .extract s)) ∧ exec .asvec s = .next (result (exec .asvec s)) :=
  ⟨next_result (by decide), next_result (by decide)⟩

end Sys2Proof.Tests
end

section
/-! SUPPORT. What the engine never writes, said once for every command, and the obligations of 00_scope.md. -/

namespace Sys2Proof.Machine

/-! ### The part of the state no command writes -/

/-- The part of a state no command writes (10_state.md R20, R25, R40, R42): CMD, PENDING, the operands, INBUF, the hazard
mark and the model's own fields, in a state that is otherwise the reset one. Two states agree in all of it exactly when
these are equal. -/
def State.hostOwned (s : State) : State :=
  { State.reset with
    cmd := s.cmd, pending := s.pending, opx := s.opx, opy := s.opy, opw := s.opw, oph := s.oph, inbuf := s.inbuf
    hazard := s.hazard, cfg := s.cfg, schedule := s.schedule, observed := s.observed }

section
variable (s : State)

@[simp] theorem State.hostOwned_cfg : s.hostOwned.cfg = s.cfg := rfl

@[simp] theorem State.finish_hostOwned (c : Code) : (s.finish c).hostOwned = s.hostOwned := rfl

@[simp] theorem State.setStore_hostOwned (m : Memory) : (s.setStore m).hostOwned = s.hostOwned := rfl

@[simp] theorem State.setRes_hostOwned (a b c d : Nat) : (s.setRes a b c d).hostOwned = s.hostOwned := rfl

@[simp] theorem State.setOutbuf_hostOwned (bytes : List Byte) : (s.setOutbuf bytes).hostOwned = s.hostOwned := rfl

@[simp] theorem State.install_hostOwned (o : Orientation) (w h : Word) (l : Nat) :
    (s.install o w h l).hostOwned = s.hostOwned := rfl

end

theorem build_hostOwned {o : Orientation} {bytes : List Byte} {s t : State} (h : build o bytes s = .ok t) :
    t.hostOwned = s.hostOwned := by
  obtain ⟨ht, -⟩ := build_eq_ok h
  rw [ht]
  simp

theorem drawRect_hostOwned {r : Rect} {s t : State} (h : drawRect r s = .ok t) : t.hostOwned = s.hostOwned := by
  rw [drawRect_setStore h]
  simp

theorem complete_hostOwned {c : Code} {s t : State} (h : complete c s = .next t) : t.hostOwned = s.hostOwned := by
  rw [complete_eq_next.1 h]
  simp

theorem newBuffer_hostOwned {o : Orientation} {s t : State} (h : newBuffer o s = .next t) :
    t.hostOwned = s.hostOwned := by
  rcases newBuffer_eq_next h with ⟨-, rfl⟩ | ⟨-, u, hu, rfl⟩
  · simp
  · simp [build_hostOwned hu]

theorem wdataBuffer_hostOwned {o : Orientation} {s t : State} (h : wdataBuffer o s = .next t) :
    t.hostOwned = s.hostOwned := by
  rcases wdataBuffer_eq_next h with ⟨-, rfl⟩ | ⟨-, -, u, w, hu, hw, rfl⟩
  · simp
  · simp [drawRect_hostOwned hw, build_hostOwned hu]

theorem wpackBuffer_hostOwned {o : Orientation} {s t : State} (h : wpackBuffer o s = .next t) :
    t.hostOwned = s.hostOwned := by
  rcases wpackBuffer_eq_next h with ⟨-, rfl⟩ | ⟨-, -, u, hu, rfl⟩
  · simp
  · simp [build_hostOwned hu]

theorem execUpdate_hostOwned {s t : State} (h : execUpdate s = .next t) : t.hostOwned = s.hostOwned := by
  rcases execUpdate_eq_next h with ⟨-, rfl⟩ | ⟨-, -, rfl⟩ | ⟨-, -, -, rfl⟩ | ⟨-, -, -, u, hu, rfl⟩
  · simp
  · simp
  · simp
  · simp [drawRect_hostOwned hu]

theorem execExtract_hostOwned {s t : State} (h : execExtract s = .next t) : t.hostOwned = s.hostOwned := by
  rcases execExtract_eq_next h with ⟨-, rfl⟩ | ⟨-, -, rfl⟩ | ⟨-, -, bytes, -, rfl⟩ <;> simp

theorem execAsvec_hostOwned {s t : State} (h : execAsvec s = .next t) : t.hostOwned = s.hostOwned := by
  rcases execAsvec_eq_next h with ⟨-, rfl⟩ | ⟨-, bytes, -, rfl⟩ <;> simp

/-- No command writes host-owned state (10_state.md R20, R25, R40). -/
theorem exec_hostOwned {i : Instr} {s t : State} (h : exec i s = .next t) : t.hostOwned = s.hostOwned := by
  cases i with
  | elen | baddrH | baddrV | norm => simpa using complete_hostOwned h
  | newH | newV => exact newBuffer_hostOwned h
  | wdataH | wdataV => exact wdataBuffer_hostOwned h
  | wpackH | wpackV => exact wpackBuffer_hostOwned h
  | update => exact execUpdate_hostOwned h
  | extract => exact execExtract_hostOwned h
  | asvec => exact execAsvec_hostOwned h

/-- Nor does the run of a pending word, legal or not (10_state.md R42). -/
theorem runPending_hostOwned {s t : State} (h : runPending s = .next t) : t.hostOwned = s.hostOwned := by
  rcases runPending_eq_next h with ⟨i, -, hi⟩ | ⟨e, -, rfl⟩
  · exact exec_hostOwned hi
  · simp

/-! ### The capacities (00_scope.md R9, R10) -/

theorem runPending_cfg {s t : State} (h : runPending s = .next t) : t.cfg = s.cfg := by
  simpa using congrArg State.cfg (runPending_hostOwned h)

theorem transact_cfg (x : Transaction) (s : State) : (transact x s).cfg = s.cfg := by
  rw [transact_frame]

theorem hostTurn_cfg {x : Transaction} {s t : State} (h : hostTurn x s = .next t) : t.cfg = s.cfg := by
  obtain ⟨-, ⟨-, -, rfl⟩ | ⟨-, rfl⟩⟩ := hostTurn_eq_next h
  · simp
  · exact transact_cfg x s

/-- No turn of any agent changes the capacities, reset's included. -/
theorem step_cfg {s t : State} (h : step s = .next t) : t.cfg = s.cfg := by
  rcases step_eq_next h with ⟨-, rfl⟩ | ⟨-, ⟨-, -, rfl⟩ | ⟨-, -, hr⟩ | ⟨x, -, hx⟩⟩
  · simp
  · simp
  · simpa using runPending_cfg hr
  · simpa using hostTurn_cfg hx

/-- Settles O31: the capacities are host-owned for the engine, and neither a transaction nor a reset writes them. -/
theorem capacitiesNeverChange : Obligations.CapacitiesNeverChange :=
  fun _ _ => step_cfg

end Sys2Proof.Machine
end

section
/-! SUPPORT. What the body of a command can do to the state, said once for every command (10_state.md R46). -/

namespace Sys2Proof.Machine

open Sys2Proof.Safety

/-- The commands of 40_calculator.md. -/
def isCalculator : Instr → Bool
  | .elen | .baddrH | .baddrV | .norm => true
  | .newH | .newV | .wdataH | .wdataV | .wpackH | .wpackV | .update | .extract | .asvec => false

/-- The commands of 42_construction.md. -/
def isConstruction : Instr → Bool
  | .newH | .newV | .wdataH | .wdataV | .wpackH | .wpackV => true
  | .elen | .baddrH | .baddrV | .norm | .update | .extract | .asvec => false

/-- What a command's body does before the command completes: the rows of the write table (10_state.md R46). -/
inductive CommandEffect (s : State) : Instr → State → Prop where
  /-- A failed check, or the no-op of UPDATE. -/
  | nothing (i : Instr) : CommandEffect s i s
  | results {i : Instr} (hi : isCalculator i = true) (a b c d : Nat) : CommandEffect s i (s.setRes a b c d)
  /-- NEW and WPACK. -/
  | built {i : Instr} {o : Orientation} {bytes : List Byte} {u : State} (hi : isConstruction i = true)
      (hlen : bytes.length = s.requiredOperand o) (hcap : s.requiredOperand o ≤ s.cfg.storeCap.val)
      (hbuild : build o bytes s = .ok u) : CommandEffect s i u
  /-- WDATA. -/
  | builtAndDrawn {i : Instr} {o : Orientation} {bytes : List Byte} {v u : State} (hi : isConstruction i = true)
      (hlen : bytes.length = s.requiredOperand o) (hcap : s.requiredOperand o ≤ s.cfg.storeCap.val)
      (hbuild : build o bytes s = .ok v) (hdraw : drawRect v.fullRect v = .ok u) : CommandEffect s i u
  | drawn {u : State} (hdraw : drawRect s.rectOperand s = .ok u) : CommandEffect s .update u
  | extracted {bytes : List Byte} (hv : s.valid = true)
      (hlen : BufferInv s → bytes.length ≤ s.storelen.toNat) (a b c d : Nat) :
      CommandEffect s .extract ((s.setOutbuf bytes).setRes a b c d)
  | copied {bytes : List Byte} (hv : s.valid = true) (hlen : bytes.length = s.storelen.toNat) :
      CommandEffect s .asvec (s.setOutbuf bytes)

/-- A command that runs to completion has one of its effects and then completes with a code (60_exceptions.md R170). -/
def Completes (s : State) (i : Instr) (t : State) : Prop :=
  ∃ u c, CommandEffect s i u ∧ t = u.finish c

theorem newBuffer_completes {i : Instr} {o : Orientation} {s t : State} (hi : isConstruction i = true)
    (h : newBuffer o s = .next t) : Completes s i t := by
  rcases newBuffer_eq_next h with ⟨-, ht⟩ | ⟨hcap, u, hu, ht⟩
  · exact ⟨s, _, .nothing i, ht⟩
  · exact ⟨u, _, .built hi List.length_replicate hcap hu, ht⟩

theorem wdataBuffer_completes {i : Instr} {o : Orientation} {s t : State} (hi : isConstruction i = true)
    (h : wdataBuffer o s = .next t) : Completes s i t := by
  rcases wdataBuffer_eq_next h with ⟨-, ht⟩ | ⟨-, hcap, v, u, hv, hu, ht⟩
  · exact ⟨s, _, .nothing i, ht⟩
  · exact ⟨u, _, .builtAndDrawn hi List.length_replicate hcap hv hu, ht⟩

theorem wpackBuffer_completes {i : Instr} {o : Orientation} {s t : State} (hi : isConstruction i = true)
    (h : wpackBuffer o s = .next t) : Completes s i t := by
  rcases wpackBuffer_eq_next h with ⟨-, ht⟩ | ⟨hlen, hcap, u, hu, ht⟩
  · exact ⟨s, _, .nothing i, ht⟩
  · exact ⟨u, _, .built hi hlen hcap hu, ht⟩

theorem execUpdate_completes {s t : State} (h : execUpdate s = .next t) : Completes s .update t := by
  rcases execUpdate_eq_next h with ⟨-, ht⟩ | ⟨-, -, ht⟩ | ⟨-, -, -, ht⟩ | ⟨-, -, -, u, hu, ht⟩
  · exact ⟨s, _, .nothing _, ht⟩
  · exact ⟨s, _, .nothing _, ht⟩
  · exact ⟨s, _, .nothing _, ht⟩
  · exact ⟨u, _, .drawn hu, ht⟩

/-- The bytes an EXTRACT copies out of a buffer are no more than the buffer has (41_transfer.md R130). -/
theorem extract_length_le {s : State} {bytes : List Byte} (hv : s.valid = true) (hb : BufferInv s)
    (ho : s.rectOperand.outside s = false)
    (h : readBytes (copyAddresses (computePart s.rectOperand s) s) s = .ok bytes) :
    bytes.length ≤ s.storelen.toNat := by
  obtain ⟨-, hp, hq⟩ := computePart_inside hv hb ho
  obtain ⟨-, hstore, -⟩ := hb hv
  rw [readBytes_length h, copyAddresses_length, hstore]
  exact Nat.mul_le_mul (by omega) (by omega)

theorem execExtract_completes {s t : State} (h : execExtract s = .next t) : Completes s .extract t := by
  rcases execExtract_eq_next h with ⟨-, ht⟩ | ⟨hv, -, ht⟩ | ⟨hv, ho, bytes, hr, ht⟩
  · exact ⟨s, _, .nothing _, ht⟩
  · exact ⟨_, _, .extracted hv (fun _ => Nat.zero_le _) 0 0 0 0, ht⟩
  · exact ⟨_, _, .extracted hv (fun hb => extract_length_le hv hb ho hr) _ _ _ _, ht⟩

theorem execAsvec_completes {s t : State} (h : execAsvec s = .next t) : Completes s .asvec t := by
  rcases execAsvec_eq_next h with ⟨-, ht⟩ | ⟨hv, bytes, hr, ht⟩
  · exact ⟨s, _, .nothing _, ht⟩
  · exact ⟨_, _, .copied hv (by rw [readBytes_length hr, List.length_range]), ht⟩

theorem exec_completes {i : Instr} {s t : State} (h : exec i s = .next t) : Completes s i t := by
  cases i with
  | elen | baddrH | baddrV | norm => exact ⟨_, _, .results rfl _ _ _ _, complete_eq_next.1 h⟩
  | newH | newV => exact newBuffer_completes rfl h
  | wdataH | wdataV => exact wdataBuffer_completes rfl h
  | wpackH | wpackV => exact wpackBuffer_completes rfl h
  | update => exact execUpdate_completes h
  | extract => exact execExtract_completes h
  | asvec => exact execAsvec_completes h

/-! ### What drawing and building leave of the state they start from -/

theorem drawRect_onlyStore {r : Rect} {s t : State} (h : drawRect r s = .ok t) : ∃ m, t = s.setStore m :=
  ⟨_, drawRect_setStore h⟩

theorem build_onlyBuffer {o : Orientation} {bytes : List Byte} {s t : State} (h : build o bytes s = .ok t) :
    ∃ m, t = (s.install o s.opw s.oph (s.requiredOperand o)).setStore m :=
  ⟨_, (build_eq_ok h).1⟩

/-- `draw` writes below STORELEN only (00_scope.md R16). -/
theorem draw_read_above {x y : Nat} {c : Mono} {s t : State} (h : draw x y c s = .ok t) {a : Nat}
    (ha : s.storelen.toNat ≤ a) : t.store.read a = s.store.read a := by
  obtain ⟨hin, v, -, rfl⟩ := drawByte_eq_ok.1 h
  obtain ⟨hlt, -⟩ := (State.inStore_iff _ _).1 hin
  exact Memory.read_write_other _ _ (by omega)

theorem drawAll_read_above {ps : List PixelWrite} {s t : State} (h : drawAll ps s = .ok t) {a : Nat}
    (ha : s.storelen.toNat ≤ a) : t.store.read a = s.store.read a := by
  induction ps generalizing s with
  | nil =>
    simp only [drawAll, Except.ok.injEq] at h
    rw [h]
  | cons p ps ih =>
    cases hd : draw p.x p.y p.c s with
    | error f => simp [drawAll, hd] at h
    | ok u =>
      simp only [drawAll, hd] at h
      have hlen : u.storelen = s.storelen := by rw [(draw_eq_ok hd).1, State.setStore_storelen]
      rw [ih h (by rwa [hlen]), draw_read_above hd ha]

/-- A construction writes below the new STORELEN only (10_state.md R46). -/
theorem build_read_above {o : Orientation} {bytes : List Byte} {s t : State} (h : build o bytes s = .ok t)
    (hlen : bytes.length = s.requiredOperand o) (hcap : s.requiredOperand o ≤ s.cfg.storeCap.val) {a : Nat}
    (ha : t.storelen.toNat ≤ a) : t.store.read a = s.store.read a := by
  obtain ⟨ht, hread⟩ := build_eq_ok h
  have hstore : t.storelen.toNat = s.requiredOperand o := by
    rw [ht]
    exact requiredOperand_toNat hcap
  rw [hread a, if_neg (by omega)]

end Sys2Proof.Machine
end

section
/-! SUPPORT. The machine's invariant (10_state.md R26, R28, R34, R38, R40 to R42, 20_memory.md R47): one lemma per
operation of the state, then per command, per turn and per step. -/

namespace Sys2Proof.Machine

open Sys2Proof.Safety

/-! ### The operations -/

/-- Only the four codes are produced (60_exceptions.md R171). -/
theorem codeBits_le (c : Code) : (codeBits c).toNat ≤ 3 := by
  cases c <;> decide

theorem storeGood_of_inv {s : State} (h : Inv s) : StoreGood s := by
  obtain ⟨hwf, hcell, -⟩ := h
  exact ⟨hwf, hcell⟩

theorem bufferInv_of_inv {s : State} (h : Inv s) : BufferInv s := by
  obtain ⟨-, -, hbuf, -⟩ := h
  exact hbuf

theorem finish_inv {s : State} (c : Code) (h : Inv s) : Inv (s.finish c) := by
  obtain ⟨hwf, hcell, hbuf, hwritten, hord, -, hrest⟩ := h
  exact ⟨hwf, hcell, hbuf, hwritten, hord, codeBits_le c, hrest⟩

theorem setOutbuf_inv {s : State} {bytes : List Byte} (hlen : bytes.length ≤ s.cfg.storeCap.val) (h : Inv s) :
    Inv (s.setOutbuf bytes) := by
  obtain ⟨hwf, hcell, hbuf, hwritten, hord, hcode, hcmd, hin, -, hempty⟩ := h
  exact ⟨hwf, hcell, hbuf, hwritten, hord, hcode, hcmd, hin, hlen, hempty⟩

theorem setInbuf_inv {s : State} {bytes : List Byte} (hlen : bytes.length ≤ s.cfg.inCap.val) (h : Inv s) :
    Inv (s.setInbuf bytes) := by
  obtain ⟨hwf, hcell, hbuf, hwritten, hord, hcode, hcmd, -, hout, hempty⟩ := h
  exact ⟨hwf, hcell, hbuf, hwritten, hord, hcode, hcmd, hlen, hout, hempty⟩

/-- The issue sets CMD and PENDING together (10_state.md R42). -/
theorem issue_inv {s : State} (v : Word) (h : Inv s) : Inv (s.issue v) := by
  obtain ⟨hwf, hcell, hbuf, hwritten, hord, hcode, -, hrest⟩ := h
  exact ⟨hwf, hcell, hbuf, hwritten, hord, hcode, rfl, hrest⟩

/-- Without a buffer nothing is asked of the store but its form, and reset leaves no byte of it (10_state.md R44). -/
theorem afterReset_inv (s : State) : Inv s.afterReset := by
  refine ⟨rfl, ?_, ?_, ?_, rfl, ?_, rfl, ?_, ?_, ?_⟩ <;> simp

/-- Drawing writes bytes that were written before, inside the store. -/
theorem drawRect_inv {r : Rect} {s t : State} (hd : drawRect r s = .ok t) (h : Inv s) : Inv t := by
  obtain ⟨hwf, hcell⟩ := drawAll_storeGood hd (storeGood_of_inv h)
  have hstill : StillWritten s t := drawAll_stillWritten hd
  obtain ⟨m, rfl⟩ := drawRect_onlyStore hd
  obtain ⟨-, -, hbuf, hwritten, hrest⟩ := h
  exact ⟨hwf, hcell, hbuf, fun hv a ha => hstill a (hwritten hv a ha), hrest⟩

theorem build_storeGood {o : Orientation} {bytes : List Byte} {s t : State} (hb : build o bytes s = .ok t)
    (h : StoreGood s) : StoreGood t := by
  have hinstall : StoreGood (s.install o s.opw s.oph (s.requiredOperand o)) := h
  exact writeBytes_storeGood hb hinstall

/-- A construction that fits leaves a good buffer, whatever buffer there was (42_construction.md R155). -/
theorem build_inv {o : Orientation} {bytes : List Byte} {s t : State} (hb : build o bytes s = .ok t)
    (hlen : bytes.length = s.requiredOperand o) (hcap : s.requiredOperand o ≤ s.cfg.storeCap.val)
    (h : Inv s) : Inv t := by
  obtain ⟨hwf, hcell⟩ := build_storeGood hb (storeGood_of_inv h)
  obtain ⟨hv, hbuf, hwritten⟩ := build_good hb hlen hcap
  obtain ⟨m, rfl⟩ := build_onlyBuffer hb
  obtain ⟨-, -, -, -, -, hcode, hcmd, hin, hout, -⟩ := h
  exact ⟨hwf, hcell, hbuf, hwritten, rfl, hcode, hcmd, hin, hout, fun hf => by simp at hf⟩

/-! ### The commands -/

theorem commandEffect_inv {i : Instr} {s u : State} (he : CommandEffect s i u) (h : Inv s) : Inv u := by
  have hbuf := bufferInv_of_inv h
  cases he with
  | nothing => exact h
  | results => exact h
  | built _ hlen hcap hbuild => exact build_inv hbuild hlen hcap h
  | builtAndDrawn _ hlen hcap hbuild hdraw => exact drawRect_inv hdraw (build_inv hbuild hlen hcap h)
  | drawn hdraw => exact drawRect_inv hdraw h
  | extracted hv hlen =>
    obtain ⟨-, -, hcap⟩ := hbuf hv
    have hout := setOutbuf_inv ((hlen hbuf).trans hcap) h
    exact hout
  | copied hv hlen =>
    obtain ⟨-, -, hcap⟩ := hbuf hv
    exact setOutbuf_inv (hlen.trans_le hcap) h

theorem runPending_inv {s t : State} (hr : runPending s = .next t) (h : Inv s) : Inv t := by
  rcases runPending_eq_next hr with ⟨i, -, hi⟩ | ⟨e, -, rfl⟩
  · obtain ⟨u, c, he, rfl⟩ := exec_completes hi
    exact finish_inv c (commandEffect_inv he h)
  · exact finish_inv _ h

/-! ### The turns -/

theorem writeIndex_inv (i : BitVec 8) (v : Word) {s : State} (h : Inv s) : Inv (writeIndex i v s) := by
  rcases writeIndex_cases i v s with ⟨-, hw⟩ | ⟨-, hw⟩ | ⟨-, hw⟩ | ⟨-, hw⟩ | ⟨-, hw⟩ | ⟨-, hw⟩ <;> rw [hw]
  · exact issue_inv v h
  all_goals exact h

theorem transact_inv {x : Transaction} {s : State} (hx : WellFormed.transaction s.cfg x = true) (h : Inv s) :
    Inv (transact x s) := by
  cases x with
  | wr i v => exact writeIndex_inv i v h
  | rd i => exact h
  | loadin bytes => exact setInbuf_inv (of_decide_eq_true hx) h
  | readout => exact h

theorem hostTurn_inv {x : Transaction} {s t : State} (hx : hostTurn x s = .next t) (h : Inv s) : Inv t := by
  obtain ⟨hwf, ⟨-, -, rfl⟩ | ⟨-, rfl⟩⟩ := hostTurn_eq_next hx
  · exact h
  · exact transact_inv hwf h

theorem step_inv {s t : State} (hs : step s = .next t) (h : Inv s) : Inv t := by
  have hdrop : Inv s.dropTurn := h
  rcases step_eq_next hs with ⟨-, rfl⟩ | ⟨-, ⟨-, -, rfl⟩ | ⟨-, -, hr⟩ | ⟨x, -, hx⟩⟩
  · exact afterReset_inv _
  · exact hdrop
  · exact runPending_inv hr hdrop
  · exact hostTurn_inv hx hdrop

/-! ### The obligations on the invariant -/

/-- Settles O20: the reset state is one that a reset leaves. -/
theorem invHoldsAtReset : Obligations.InvHoldsAtReset :=
  afterReset_inv State.reset

/-- Settles O21: each operation of the state keeps the invariant, so each command and each turn does. -/
theorem everyStepKeepsInv : Obligations.EveryStepKeepsInv :=
  fun _ _ h hs => step_inv hs h

end Sys2Proof.Machine
end

section
/-! SUPPORT. What each command leaves as it was (10_state.md R20, R25, R28, R40, R42, R46). -/

namespace Sys2Proof.Machine

open Sys2Proof.Safety

/-! ### The columns of the write table -/

section
variable {s u : State} {i : Instr}

theorem commandEffect_res (he : CommandEffect s i u) (hc : isCalculator i = false) (hx : i ≠ .extract) :
    u.res0 = s.res0 ∧ u.res1 = s.res1 ∧ u.res2 = s.res2 ∧ u.res3 = s.res3 := by
  cases he with
  | nothing | copied => exact ⟨rfl, rfl, rfl, rfl⟩
  | results hi => simp [hi] at hc
  | built _ _ _ hbuild =>
    obtain ⟨m, rfl⟩ := build_onlyBuffer hbuild
    exact ⟨rfl, rfl, rfl, rfl⟩
  | builtAndDrawn _ _ _ hbuild hdraw =>
    obtain ⟨m, rfl⟩ := build_onlyBuffer hbuild
    obtain ⟨m', rfl⟩ := drawRect_onlyStore hdraw
    exact ⟨rfl, rfl, rfl, rfl⟩
  | drawn hdraw =>
    obtain ⟨m, rfl⟩ := drawRect_onlyStore hdraw
    exact ⟨rfl, rfl, rfl, rfl⟩
  | extracted => exact absurd rfl hx

theorem commandEffect_outbuf (he : CommandEffect s i u) (hx : i ≠ .extract) (ha : i ≠ .asvec) :
    u.outbuf = s.outbuf := by
  cases he with
  | nothing | results => rfl
  | built _ _ _ hbuild =>
    obtain ⟨m, rfl⟩ := build_onlyBuffer hbuild
    rfl
  | builtAndDrawn _ _ _ hbuild hdraw =>
    obtain ⟨m, rfl⟩ := build_onlyBuffer hbuild
    obtain ⟨m', rfl⟩ := drawRect_onlyStore hdraw
    rfl
  | drawn hdraw =>
    obtain ⟨m, rfl⟩ := drawRect_onlyStore hdraw
    rfl
  | extracted => exact absurd rfl hx
  | copied => exact absurd rfl ha

theorem commandEffect_store (he : CommandEffect s i u) (hc : isConstruction i = false) (hu : i ≠ .update) :
    u.store = s.store := by
  cases he with
  | nothing | results | extracted | copied => rfl
  | built hi | builtAndDrawn hi => simp [hi] at hc
  | drawn => exact absurd rfl hu

theorem commandEffect_config (he : CommandEffect s i u) (hc : isConstruction i = false) :
    u.valid = s.valid ∧ u.orient = s.orient ∧ u.bitord = s.bitord ∧ u.width = s.width ∧ u.height = s.height ∧
      u.eightlen = s.eightlen ∧ u.storelen = s.storelen := by
  cases he with
  | nothing | results | extracted | copied => exact ⟨rfl, rfl, rfl, rfl, rfl, rfl, rfl⟩
  | built hi | builtAndDrawn hi => simp [hi] at hc
  | drawn hdraw =>
    obtain ⟨m, rfl⟩ := drawRect_onlyStore hdraw
    exact ⟨rfl, rfl, rfl, rfl, rfl, rfl, rfl⟩

theorem commandEffect_read_above (he : CommandEffect s i u) {a : Nat} (ha : u.storelen.toNat ≤ a) :
    u.store.read a = s.store.read a := by
  cases he with
  | nothing | results | extracted | copied => rfl
  | built _ hlen hcap hbuild => exact build_read_above hbuild hlen hcap ha
  | @builtAndDrawn _ _ _ v _ _ hlen hcap hbuild hdraw =>
    have hv : v.storelen.toNat ≤ a := by
      obtain ⟨m, rfl⟩ := drawRect_onlyStore hdraw
      exact ha
    rw [drawAll_read_above hdraw hv, build_read_above hbuild hlen hcap hv]
  | drawn hdraw =>
    refine drawAll_read_above hdraw ?_
    obtain ⟨m, rfl⟩ := drawRect_onlyStore hdraw
    exact ha

/-- UPDATE writes no bit but those of the pixels of the clamped region (41_transfer.md R125). -/
theorem commandEffect_update_storeBit (he : CommandEffect s .update u) {a k : Nat} (hk : k < 8)
    (hne : ∀ dx dy, dx < effWidth s.rectOperand s → dy < effHeight s.rectOperand s →
      a ≠ (s.pixelAddress (s.opx.toNat + dx) (s.opy.toNat + dy)).index ∨
        k ≠ (s.pixelAddress (s.opx.toNat + dx) (s.opy.toNat + dy)).phys) :
    storeBit u a k = storeBit s a k := by
  cases he with
  | nothing | results => rfl
  | built hi | builtAndDrawn hi => simp [isConstruction] at hi
  | drawn hdraw => exact drawRect_other hdraw hk hne

/-- No command takes the buffer away (10_state.md R28). -/
theorem commandEffect_valid (he : CommandEffect s i u) (hv : s.valid = true) : u.valid = true := by
  cases he with
  | nothing | results | extracted | copied => exact hv
  | built _ _ _ hbuild =>
    obtain ⟨m, rfl⟩ := build_onlyBuffer hbuild
    rfl
  | builtAndDrawn _ _ _ hbuild hdraw =>
    obtain ⟨m, rfl⟩ := build_onlyBuffer hbuild
    obtain ⟨m', rfl⟩ := drawRect_onlyStore hdraw
    rfl
  | drawn hdraw =>
    obtain ⟨m, rfl⟩ := drawRect_onlyStore hdraw
    exact hv

end

theorem isCalculator_eq_false {i : Instr} :
    isCalculator i = false ↔ i ≠ .elen ∧ i ≠ .baddrH ∧ i ≠ .baddrV ∧ i ≠ .norm := by
  cases i <;> simp [isCalculator]

/-- Settles O26: each column is a lemma about the effects a command can have, and completing writes none of them. -/
theorem commandsWriteOnlyTheirState : Obligations.CommandsWriteOnlyTheirState := by
  intro s t i h
  obtain ⟨u, c, he, rfl⟩ := exec_completes h
  refine ⟨?res, ?outbuf, ?store, ?config, fun a ha => (commandEffect_read_above he ha :), ?update⟩
  case res =>
    rintro ⟨h1, h2, h3, h4, hx⟩
    exact (commandEffect_res he (isCalculator_eq_false.2 ⟨h1, h2, h3, h4⟩) hx :)
  case outbuf => exact fun ⟨hx, ha⟩ => (commandEffect_outbuf he hx ha :)
  case store =>
    rintro (rfl | rfl | rfl | rfl | rfl | rfl) <;> exact (commandEffect_store he rfl (by decide) :)
  case config =>
    rintro (rfl | rfl | rfl | rfl | rfl | rfl | rfl) <;> exact (commandEffect_config he rfl :)
  case update =>
    rintro rfl a k hk hne
    exact (commandEffect_update_storeBit he hk hne :)

/-! ### The engine's run -/

/-- Every completion clears BUSY (60_exceptions.md R170). -/
theorem runPending_busy {s t : State} (h : runPending s = .next t) : t.busy = false := by
  rcases runPending_eq_next h with ⟨i, -, hi⟩ | ⟨e, -, rfl⟩
  · obtain ⟨u, c, -, rfl⟩ := exec_completes hi
    rfl
  · rfl

/-- Agreement in the host-owned part, field by field. -/
theorem hostOwned_eq_iff {s t : State} :
    t.hostOwned = s.hostOwned ↔
      t.cmd = s.cmd ∧ t.pending = s.pending ∧ t.opx = s.opx ∧ t.opy = s.opy ∧ t.opw = s.opw ∧ t.oph = s.oph ∧
        t.inbuf = s.inbuf ∧ t.hazard = s.hazard ∧ t.cfg = s.cfg ∧ t.schedule = s.schedule ∧
        t.observed = s.observed := by
  simp [State.hostOwned]

/-- Settles O25: the fields are those of the host-owned part, which no command writes. -/
theorem engineWritesNoHostState : Obligations.EngineWritesNoHostState := by
  intro s t h
  obtain ⟨hcmd, hpending, hx, hy, hw, hh, hin, hhazard, hcfg, hsched, hobs⟩ :=
    hostOwned_eq_iff.1 (runPending_hostOwned h)
  exact ⟨hcmd, hpending, hx, hy, hw, hh, hin, hhazard, hcfg, hsched, hobs, runPending_busy h⟩

/-! ### VALID -/

theorem runPending_valid {s t : State} (h : runPending s = .next t) (hv : s.valid = true) : t.valid = true := by
  rcases runPending_eq_next h with ⟨i, -, hi⟩ | ⟨e, -, rfl⟩
  · obtain ⟨u, c, he, rfl⟩ := exec_completes hi
    exact (commandEffect_valid he hv :)
  · exact hv

theorem hostTurn_valid {x : Transaction} {s t : State} (h : hostTurn x s = .next t) : t.valid = s.valid := by
  obtain ⟨-, ⟨-, -, rfl⟩ | ⟨-, rfl⟩⟩ := hostTurn_eq_next h
  · rfl
  · rw [transact_frame]

/-- Settles O29: no command clears VALID, no transaction writes it, and a reset is excluded. -/
theorem validStaysUntilReset : Obligations.ValidStaysUntilReset := by
  intro s t hv hs hreset
  have hdrop : s.dropTurn.valid = true := hv
  rcases step_eq_next hs with ⟨hn, -⟩ | ⟨-, ⟨-, -, rfl⟩ | ⟨-, -, hr⟩ | ⟨x, -, hx⟩⟩
  · exact absurd hn hreset
  · exact hdrop
  · exact runPending_valid hr hdrop
  · rw [hostTurn_valid hx, hdrop]

end Sys2Proof.Machine
end

section
/-! SUPPORT. What the host cannot tell apart by the store (10_state.md R38, 20_memory.md R48): commands, turns, steps and
runs answer alike on two states of the same view. -/

namespace Sys2Proof.Machine

open Sys2Proof.Safety

/-! ### Views and outcomes -/

/-- An operation that does not look at the store and leaves it and the buffer's bounds alone keeps the view. -/
theorem sameView_map {f : State → State} {s s' : State} (hset : ∀ m, f (s.setStore m) = (f s).setStore m)
    (hvalid : (f s).valid = s.valid) (hlen : (f s).storelen = s.storelen) (hstore : (f s).store = s.store)
    (h : SameView s s') : SameView (f s) (f s') := by
  obtain ⟨e, hr⟩ := h
  have hf : f s' = (f s).setStore s'.store := by
    rw [← hset]
    exact congrArg f e
  rw [hf]
  refine ⟨rfl, fun hv a ha => ?_⟩
  rw [hstore, State.setStore_store]
  exact hr (hvalid ▸ hv) a (hlen ▸ ha)

theorem sameView_refl (s : State) : SameView s s :=
  ⟨rfl, fun _ _ _ => rfl⟩

/-- Outcomes that are alike are of one kind. -/
theorem alike_cases {r r' : Host.Outcome State Fault Refusal} (h : Alike r r') :
    (∃ t t', r = .next t ∧ r' = .next t' ∧ SameView t t') ∨ (∃ f, r = .fault f ∧ r' = .fault f) ∨
      ∃ q, r = .refused q ∧ r' = .refused q := by
  cases r with
  | next t =>
    cases r' with
    | next t' => exact .inl ⟨t, t', rfl, rfl, h⟩
    | fault | refused => exact h.elim
  | fault f =>
    cases r' with
    | fault f' => exact .inr (.inl ⟨f, rfl, congrArg _ (Eq.symm h)⟩)
    | next | refused => exact h.elim
  | refused q =>
    cases r' with
    | refused q' => exact .inr (.inr ⟨q, rfl, congrArg _ (Eq.symm h)⟩)
    | next | fault => exact h.elim

theorem complete_alike {s s' : State} (c : Code) (h : SameView s s') : Alike (complete c s) (complete c s') :=
  sameView_map (f := State.finish c) (fun _ => rfl) rfl rfl rfl h

theorem completeBody_alike {r r' : Except Fault State} (h : BodyAlike r r') :
    Alike (completeBody r) (completeBody r') := by
  obtain ⟨hok, herr⟩ := h
  cases r with
  | ok u =>
    obtain ⟨u', rfl, hu⟩ := hok u rfl
    exact complete_alike .ok hu.sameView
  | error f =>
    rw [herr f rfl]
    rfl

/-! ### What the commands look at beside the store -/

section
variable (s : State) (m : Memory)

@[simp] theorem State.requiredOperand_setStore (o : Orientation) :
    (s.setStore m).requiredOperand o = s.requiredOperand o := rfl

@[simp] theorem zeroBytes_setStore (o : Orientation) : zeroBytes o (s.setStore m) = zeroBytes o s := rfl

@[simp] theorem State.rectOperand_setStore : (s.setStore m).rectOperand = s.rectOperand := rfl

@[simp] theorem Rect.outside_setStore (r : Rect) : r.outside (s.setStore m) = r.outside s := rfl

@[simp] theorem computePart_setStore (r : Rect) : computePart r (s.setStore m) = computePart r s := rfl

@[simp] theorem copyAddresses_setStore (d : Descriptor) : copyAddresses d (s.setStore m) = copyAddresses d s := rfl

@[simp] theorem regValue_setStore (r : Reg) : regValue r (s.setStore m) = regValue r s := by
  cases r <;> rfl

@[simp] theorem readIndex_setStore (i : BitVec 8) : readIndex i (s.setStore m) = readIndex i s := by
  unfold readIndex
  cases regAt i with
  | none => rfl
  | some r => exact regValue_setStore s m r

theorem writeReg_setStore (r : Reg) (v : Word) : writeReg r v (s.setStore m) = (writeReg r v s).setStore m := by
  cases r <;> rfl

theorem writeIndex_setStore (i : BitVec 8) (v : Word) :
    writeIndex i v (s.setStore m) = (writeIndex i v s).setStore m := by
  unfold writeIndex
  cases regAt i with
  | none => rfl
  | some r => exact writeReg_setStore s m r v

theorem transact_setStore (x : Transaction) : transact x (s.setStore m) = (transact x s).setStore m := by
  cases x with
  | wr i v => exact writeIndex_setStore s m i v
  | rd i =>
    simp only [transact, readIndex_setStore]
    rfl
  | loadin bytes => rfl
  | readout => rfl

end

@[simp] theorem completeBody_ok (u : State) : completeBody (.ok u) = complete .ok u := rfl

/-! ### The commands -/

theorem sameView_setStore {s s' : State} (h : SameView s s') : ∃ m, s' = s.setStore m :=
  ⟨s'.store, h.1⟩

section
variable {s s' : State}

theorem newBuffer_alike (o : Orientation) (h : SameView s s') : Alike (newBuffer o s) (newBuffer o s') := by
  obtain ⟨m, rfl⟩ := sameView_setStore h
  by_cases hcap : s.cfg.storeCap.val < s.requiredOperand o
  · simpa [newBuffer, hcap] using complete_alike .errLength h
  · obtain ⟨u, u', hu, hu', hagree⟩ :=
      build_agree (o := o) (bytes := zeroBytes o s) h.1 List.length_replicate (by omega)
    simpa [newBuffer, hcap, hu, hu'] using complete_alike .ok hagree.sameView

theorem wpackBuffer_alike (o : Orientation) (h : SameView s s') : Alike (wpackBuffer o s) (wpackBuffer o s') := by
  obtain ⟨m, rfl⟩ := sameView_setStore h
  by_cases hlen : s.inbuf.length = s.requiredOperand o
  · by_cases hcap : s.cfg.storeCap.val < s.requiredOperand o
    · simpa [wpackBuffer, hlen, hcap] using complete_alike .errLength h
    · obtain ⟨u, u', hu, hu', hagree⟩ := build_agree h.1 hlen (by omega)
      simpa [wpackBuffer, hlen, hcap, hu, hu'] using complete_alike .ok hagree.sameView
  · simpa [wpackBuffer, hlen] using complete_alike .errLength h

theorem wdataBuffer_alike (o : Orientation) (h : SameView s s') : Alike (wdataBuffer o s) (wdataBuffer o s') := by
  obtain ⟨m, rfl⟩ := sameView_setStore h
  by_cases hlen : s.inbuf.length = s.opw.toNat * s.oph.toNat
  · by_cases hcap : s.cfg.storeCap.val < s.requiredOperand o
    · simpa [wdataBuffer, hlen, hcap] using complete_alike .errLength h
    · obtain ⟨u, u', hu, hu', hagree⟩ :=
        build_agree (o := o) (bytes := zeroBytes o s) h.1 List.length_replicate (by omega)
      have hrect : u'.fullRect = u.fullRect := by rw [hagree.1]; rfl
      simpa [wdataBuffer, hlen, hcap, hu, hu', hrect] using completeBody_alike (drawRect_agree hagree u.fullRect)
  · simpa [wdataBuffer, hlen] using complete_alike .errLength h

theorem execUpdate_alike (h : SameView s s') : Alike (execUpdate s) (execUpdate s') := by
  obtain ⟨m, rfl⟩ := sameView_setStore h
  cases hv : s.valid with
  | false => simpa [execUpdate, hv] using complete_alike .errNoBuffer h
  | true =>
    by_cases hlen : s.inbuf.length = s.opw.toNat * s.oph.toNat
    · by_cases hout : s.rectOperand.outside s = true
      · simpa [execUpdate, hv, hlen, hout] using complete_alike .ok h
      · simpa [execUpdate, hv, hlen, hout] using
          completeBody_alike (drawRect_agree (agree_of_sameView hv h) s.rectOperand)
    · simpa [execUpdate, hv, hlen] using complete_alike .errLength h

/-- A result in OUTBUF and RES0 to RES3 keeps the view. -/
theorem complete_results_alike (bytes : List Byte) (a b c d : Nat) (h : SameView s s') :
    Alike (complete .ok ((s.setOutbuf bytes).setRes a b c d)) (complete .ok ((s'.setOutbuf bytes).setRes a b c d)) :=
  complete_alike .ok
    (sameView_map (f := fun s => (s.setOutbuf bytes).setRes a b c d) (fun _ => rfl) rfl rfl rfl h)

theorem execExtract_alike (h : SameView s s') : Alike (execExtract s) (execExtract s') := by
  obtain ⟨m, rfl⟩ := sameView_setStore h
  cases hv : s.valid with
  | false => simpa [execExtract, hv] using complete_alike .errNoBuffer h
  | true =>
    by_cases hout : s.rectOperand.outside s = true
    · simpa [execExtract, hv, hout] using complete_results_alike [] 0 0 0 0 h
    · have hr := readBytes_agree (agree_of_sameView hv h)
      cases hb : readBytes (copyAddresses (computePart s.rectOperand s) s) s with
      | error f => simp [execExtract, hv, hout, hr, hb, Alike]
      | ok bytes => simpa [execExtract, hv, hout, hr, hb] using complete_results_alike bytes _ _ _ _ h

theorem execAsvec_alike (h : SameView s s') : Alike (execAsvec s) (execAsvec s') := by
  obtain ⟨m, rfl⟩ := sameView_setStore h
  cases hv : s.valid with
  | false => simpa [execAsvec, hv] using complete_alike .errNoBuffer h
  | true =>
    have hr := readBytes_agree (agree_of_sameView hv h)
    cases hb : readBytes (List.range s.storelen.toNat) s with
    | error f => simp [execAsvec, hv, hr, hb, Alike]
    | ok bytes =>
      have hview : SameView (s.setOutbuf bytes) ((s.setStore m).setOutbuf bytes) :=
        sameView_map (f := State.setOutbuf bytes) (fun _ => rfl) rfl rfl rfl h
      simpa [execAsvec, hv, hr, hb] using complete_alike .ok hview

/-- The calculator commands answer with results that do not depend on the store. -/
theorem complete_setRes_alike (a b c d : Nat) (h : SameView s s') :
    Alike (complete .ok (s.setRes a b c d)) (complete .ok (s'.setRes a b c d)) :=
  complete_alike .ok (sameView_map (f := State.setRes a b c d) (fun _ => rfl) rfl rfl rfl h)

theorem exec_alike (i : Instr) (h : SameView s s') : Alike (exec i s) (exec i s') := by
  cases i with
  | elen | baddrH | baddrV | norm =>
    obtain ⟨m, rfl⟩ := sameView_setStore h
    exact complete_setRes_alike _ _ _ _ h
  | newH | newV => exact newBuffer_alike _ h
  | wdataH | wdataV => exact wdataBuffer_alike _ h
  | wpackH | wpackV => exact wpackBuffer_alike _ h
  | update => exact execUpdate_alike h
  | extract => exact execExtract_alike h
  | asvec => exact execAsvec_alike h

/-! ### The turns, a step, a run -/

theorem runPending_alike (h : SameView s s') : Alike (runPending s) (runPending s') := by
  obtain ⟨m, rfl⟩ := sameView_setStore h
  unfold runPending
  rw [State.setStore_pending]
  cases decode s.pending with
  | ok i => exact exec_alike i h
  | error e => exact complete_alike .errIllegal h

theorem engineTurn_alike (h : SameView s s') : Alike (engineTurn s) (engineTurn s') := by
  obtain ⟨m, rfl⟩ := sameView_setStore h
  cases hb : s.busy with
  | true => simpa [engineTurn, hb] using runPending_alike h
  | false => simpa [engineTurn, hb, Alike] using h

theorem transact_sameView (x : Transaction) (h : SameView s s') : SameView (transact x s) (transact x s') :=
  sameView_map (fun m => transact_setStore s m x) (by rw [transact_frame]) (by rw [transact_frame])
    (by rw [transact_frame]) h

theorem hostTurn_alike (x : Transaction) (h : SameView s s') : Alike (hostTurn x s) (hostTurn x s') := by
  obtain ⟨m, rfl⟩ := sameView_setStore h
  unfold hostTurn
  rw [State.setStore_cfg, State.setStore_busy]
  split
  · rfl
  · split
    · exact sameView_map (f := State.raiseHazard (hazardInfo x)) (fun _ => rfl) rfl rfl rfl h
    · exact transact_sameView x h

theorem takeTurn_alike (x : Turn) (h : SameView s s') : Alike (takeTurn x s) (takeTurn x s') := by
  obtain ⟨m, rfl⟩ := sameView_setStore h
  cases x with
  | reset => exact sameView_refl s.afterReset
  | engine =>
    cases hz : s.hazard with
    | none => simpa [takeTurn, hz] using engineTurn_alike h
    | some info => simp [takeTurn, hz, Alike]
  | host x =>
    cases hz : s.hazard with
    | none => simpa [takeTurn, hz] using hostTurn_alike x h
    | some info => simp [takeTurn, hz, Alike]

theorem step_alike (h : SameView s s') : Alike (step s) (step s') := by
  have hdrop : SameView s.dropTurn s'.dropTurn :=
    sameView_map (f := State.dropTurn) (fun _ => rfl) rfl rfl rfl h
  have hnext : s'.nextTurn = s.nextTurn := by
    obtain ⟨m, rfl⟩ := sameView_setStore h
    rfl
  unfold step
  rw [hnext]
  exact takeTurn_alike _ hdrop

theorem run_succ_of_next {t : State} (n : Nat) (h : step s = .next t) :
    Host.Core.run Sys2Proof.core (n + 1) s = Host.Core.run Sys2Proof.core n t := by
  have hcore : Sys2Proof.core.step s = .next t := h
  simp only [Host.Core.run, hcore]

theorem run_succ_of_fault {f : Fault} (n : Nat) (h : step s = .fault f) :
    Host.Core.run Sys2Proof.core (n + 1) s = .fault f := by
  have hcore : Sys2Proof.core.step s = .fault f := h
  simp only [Host.Core.run, hcore]

theorem run_succ_of_refused {q : Refusal} (n : Nat) (h : step s = .refused q) :
    Host.Core.run Sys2Proof.core (n + 1) s = .refused q := by
  have hcore : Sys2Proof.core.step s = .refused q := h
  simp only [Host.Core.run, hcore]

theorem run_alike (n : Nat) (h : SameView s s') :
    Alike (Host.Core.run Sys2Proof.core n s) (Host.Core.run Sys2Proof.core n s') := by
  induction n generalizing s s' with
  | zero => exact h
  | succ n ih =>
    rcases alike_cases (step_alike h) with ⟨t, t', ht, ht', hview⟩ | ⟨f, hf, hf'⟩ | ⟨q, hq, hq'⟩
    · rw [run_succ_of_next n ht, run_succ_of_next n ht']
      exact ih hview
    · rw [run_succ_of_fault n hf, run_succ_of_fault n hf']
      rfl
    · rw [run_succ_of_refused n hq, run_succ_of_refused n hq']
      rfl

end

/-- Settles O32: a command, a step and, by induction on its length, a run keep the view. -/
theorem storeBeforeConstructionIsUnobservable : Obligations.StoreBeforeConstructionIsUnobservable :=
  fun _ _ h => ⟨fun i => exec_alike i h, step_alike h, fun n => run_alike n h⟩

end Sys2Proof.Machine
end

section
/-! SUPPORT. The turns the statements of 10_state.md name: the engine's run of a placed word, and the host's reads and
writes of the register space (10_state.md R20 to R32, R42, R44). -/

namespace Sys2Proof.Machine

/-! ### The engine's turn -/

section
variable {s : State}

theorem step_of_pending (hz : s.hazard = none) (hb : s.busy = true) (hn : s.nextTurn = .engine) {i : Instr}
    (hd : decode s.pending = .ok i) : step s = exec i s.dropTurn := by
  simp [step, hn, takeTurn, hz, engineTurn, hb, runPending, hd]

theorem decode_of_decodeTableWord {nbits w : Nat} {i : Instr} (h : decodeTableWord nbits w = some i) :
    decode (tableWord nbits w) = .ok i := by
  unfold decodeTableWord at h
  cases hd : decode (tableWord nbits w) with
  | ok j => simpa [hd] using h
  | error e => simp [hd] at h

end

/-- Settles O4: the turn the step takes is the engine's, and the engine runs what the pending word decodes to. -/
theorem stepRunsDecodedCommand : Obligations.StepRunsDecodedCommand :=
  fun _ _ hz hb hn hd => step_of_pending hz hb hn hd

/-- Settles O5: a placed word is a pending one with the engine's turn next; the step takes that turn off again. -/
theorem placedWordRunsNext : Obligations.PlacedWordRunsNext := by
  intro s nbits w i h
  exact step_of_pending (s := s.place (tableWord nbits w)) rfl rfl rfl (decode_of_decodeTableWord h)

/-! ### The host's turn -/

section
variable {s : State} {x : Transaction}

/-- A transaction that raises no hazard has its effect (30_encoding.md R70). -/
theorem step_of_transaction (hz : s.hazard = none) (hn : s.nextTurn = .host x)
    (hok : s.busy = false ∨ isStatusRead x = true) (hwf : WellFormed.transaction s.cfg x = true) :
    step s = .next (transact x s.dropTurn) := by
  have hsafe : (s.busy && !isStatusRead x) = false := by
    rcases hok with h | h <;> simp [h]
  simp [step, hn, takeTurn, hz, hostTurn, hwf, hsafe]

theorem step_of_write {i : BitVec 8} {v : Word} (hz : s.hazard = none) (hb : s.busy = false)
    (hn : s.nextTurn = .host (.wr i v)) : step s = .next (writeIndex i v s.dropTurn) :=
  step_of_transaction hz hn (.inl hb) rfl

theorem regValue_dropTurn (r : Reg) (s : State) : regValue r s.dropTurn = regValue r s := by
  cases r <;> rfl

theorem readIndex_dropTurn (i : BitVec 8) (s : State) : readIndex i s.dropTurn = readIndex i s := by
  unfold readIndex
  cases regAt i with
  | none => rfl
  | some r => exact regValue_dropTurn r s

theorem step_of_read {i : BitVec 8} (hz : s.hazard = none) (hn : s.nextTurn = .host (.rd i))
    (hok : s.busy = false ∨ i = 0x01) :
    step s = .next (s.dropTurn.observe (.word i (readIndex i s))) := by
  rw [← readIndex_dropTurn]
  exact step_of_transaction hz hn (hok.imp id decide_eq_true) rfl

end

/-! ### The registers -/

/-- A write of an index that is read-only or reserved does nothing (10_state.md R23). -/
theorem writeIndex_of_not_writable {i : BitVec 8} (hi : i = 0x01 ∨ 0x06 ≤ i.toNat) (v : Word) (s : State) :
    writeIndex i v s = s := by
  rcases writeIndex_cases i v s with ⟨rfl, -⟩ | ⟨rfl, -⟩ | ⟨rfl, -⟩ | ⟨rfl, -⟩ | ⟨rfl, -⟩ | ⟨-, h⟩
  case inr.inr.inr.inr.inr => exact h
  all_goals exact absurd hi (by decide)

/-- The 17 registers stand at 0x00 to 0x10 (10_state.md R22). -/
theorem regAt_of_reserved {i : BitVec 8} (hi : 0x11 ≤ i.toNat) : regAt i = none := by
  revert i
  decide

theorem readIndex_of_reserved {i : BitVec 8} (hi : 0x11 ≤ i.toNat) (s : State) : readIndex i s = 0 := by
  rw [readIndex, regAt_of_reserved hi]

/-- The STATUS word as the sum of its fields (10_state.md R26). -/
theorem statusWord_toNat (s : State) : s.statusWord.toNat = s.code.toNat + if s.busy then 16 else 0 := by
  have hadd := Nat.shiftLeft_add_eq_or_of_lt s.code.isLt (0#27 ++ BitVec.ofBool s.busy).toNat
  rw [State.statusWord, BitVec.toNat_append, ← hadd, Nat.add_comm]
  cases s.busy <;> rfl

/-- The CONFIG word as the sum of its fields (10_state.md R28). -/
theorem configWord_toNat (s : State) :
    s.configWord.toNat =
      (if s.valid then 1 else 0) + (if s.orient = .vertical then 2 else 0) +
        (if s.bitord = .lsbFirst then 4 else 0) := by
  cases hv : s.valid <;> cases ho : s.orient <;> cases hb : s.bitord <;>
    simp [State.configWord, hv, ho, hb, orientBit, bitOrderBit]

/-! ### The obligations on host transactions and reset -/

/-- Settles O8: index 0x00 is CMD. -/
theorem cmdWriteIssuesCommand : Obligations.CmdWriteIssuesCommand :=
  fun _ _ hz hb hn => step_of_write hz hb hn

/-- Settles O9: each index names its operand register. -/
theorem operandWritesSetTheirRegister : Obligations.OperandWritesSetTheirRegister :=
  fun _ _ hz hb => ⟨step_of_write hz hb, step_of_write hz hb, step_of_write hz hb, step_of_write hz hb⟩

/-- Settles O10: the register space has nothing to write at those indices and nothing to read above 0x10. -/
theorem readOnlyWritesIgnoredReservedReadsZero : Obligations.ReadOnlyWritesIgnoredReservedReadsZero := by
  refine ⟨fun s i v hz hb hn hi => ?_, fun s i hz hb hn hi => ?_⟩
  · rw [step_of_write hz hb hn, writeIndex_of_not_writable hi]
    rfl
  · rw [step_of_read hz hn (.inl hb), readIndex_of_reserved hi]
    rfl

/-- Settles O11: the read returns the word of the index, register by register. -/
theorem registerReadsFollowTheMap : Obligations.RegisterReadsFollowTheMap := by
  intro s i hz hb hn
  refine ⟨readIndex i s, step_of_read hz hn (.inl hb), ?_, ?status, ?_, ?_, ?_, ?_, ?_, ?_, ?_, ?_, ?config, ?_, ?_,
    ?_, ?_, ?inlen, ?outlen⟩
  case status =>
    rintro rfl
    exact (statusWord_toNat s).trans (by simp [hb])
  case config =>
    rintro rfl
    exact configWord_toNat s
  case inlen =>
    rintro rfl
    exact BitVec.toNat_ofNat _ _
  case outlen =>
    rintro rfl
    exact BitVec.toNat_ofNat _ _
  all_goals
    rintro rfl
    rfl

/-- Settles O12: `rd STATUS` is the one read that raises no hazard while BUSY = 1. -/
theorem statusReadAlwaysAllowed : Obligations.StatusReadAlwaysAllowed :=
  fun s hz hn => ⟨s.statusWord, statusWord_toNat s, step_of_read hz hn (.inr rfl)⟩

/-- Settles O18: the record of the reset state, field by field. -/
theorem resetLeavesTheStatedValues : Obligations.ResetLeavesTheStatedValues := by
  unfold Obligations.ResetLeavesTheStatedValues
  decide

end Sys2Proof.Machine
end

section
/-! SUPPORT. A good state answers (20_memory.md R49, 10_state.md R38): every command on a good buffer or on none, every
engine turn, and every host turn but a LOADIN over IN_CAP. -/

namespace Sys2Proof.Machine

open Sys2Proof.Safety

/-! ### The addresses of EXTRACT -/

/-- EXTRACT reads below STORELEN only (41_transfer.md R130). -/
theorem copyAddresses_lt_storelen {s : State} (hv : s.valid = true) (hb : BufferInv s)
    (ho : s.rectOperand.outside s = false) {a : Nat}
    (ha : a ∈ copyAddresses (computePart s.rectOperand s) s) : a < s.storelen.toNat := by
  obtain ⟨horient, hp, hq⟩ := computePart_inside hv hb ho
  obtain ⟨-, hlen, -⟩ := hb hv
  rw [copyAddresses, horient] at ha
  rw [hlen]
  cases hs : s.orient <;>
    simp only [hs, otherExtent, otherDim, List.mem_flatMap, List.mem_map, List.mem_range] at ha hq ⊢
  case horizontal =>
    obtain ⟨r, hr, c, hc, rfl⟩ := ha
    rw [Nat.add_assoc]
    exact mul_add_lt (by omega) (by omega)
  case vertical =>
    obtain ⟨r, hr, c, hc, rfl⟩ := ha
    rw [Nat.add_assoc, Nat.mul_comm s.eightlen.toNat]
    exact mul_add_lt (by omega) (by omega)

/-- A good buffer can be read at any addresses below STORELEN. -/
theorem readBytes_of_good {s : State} (hv : s.valid = true) (h : GoodBuffer s) {as : List Nat}
    (has : ∀ a ∈ as, a < s.storelen.toNat) : ∃ bytes, readBytes as s = .ok bytes := by
  obtain ⟨hbuf, hwritten⟩ := h
  obtain ⟨-, -, hcap⟩ := hbuf hv
  exact readBytes_of_written
    (fun a ha => (State.inStore_iff s a).2 ⟨has a ha, (has a ha).trans_le hcap⟩)
    (fun a ha => hwritten hv a (has a ha))

/-! ### The commands -/

theorem newBuffer_answers (o : Orientation) (s : State) : ∃ t, newBuffer o s = .next t := by
  by_cases hcap : s.cfg.storeCap.val < s.requiredOperand o
  · exact ⟨_, if_pos hcap⟩
  · obtain ⟨u, hu⟩ := build_of_fits (bytes := zeroBytes o s) List.length_replicate (Nat.le_of_not_lt hcap)
    simp [newBuffer, hcap, hu, complete]

/-- The zero buffer WDATA builds is a good one, so the full-buffer update answers on it. -/
theorem wdataBuffer_answers (o : Orientation) (s : State) : ∃ t, wdataBuffer o s = .next t := by
  by_cases hlen : s.inbuf.length = s.opw.toNat * s.oph.toNat
  · by_cases hcap : s.cfg.storeCap.val < s.requiredOperand o
    · simp [wdataBuffer, hcap, complete]
    · have hfits := Nat.le_of_not_lt hcap
      obtain ⟨u, hu⟩ := build_of_fits (bytes := zeroBytes o s) List.length_replicate hfits
      obtain ⟨hv, hgood⟩ := build_good hu List.length_replicate hfits
      obtain ⟨w, hw⟩ := drawRect_of_good (r := u.fullRect) hv hgood
      simp [wdataBuffer, hlen, hcap, hu, hw, complete]
  · exact ⟨_, if_pos hlen⟩

theorem wpackBuffer_answers (o : Orientation) (s : State) : ∃ t, wpackBuffer o s = .next t := by
  by_cases hlen : s.inbuf.length = s.requiredOperand o
  · by_cases hcap : s.cfg.storeCap.val < s.requiredOperand o
    · simp [wpackBuffer, hcap, complete]
    · obtain ⟨u, hu⟩ := build_of_fits hlen (Nat.le_of_not_lt hcap)
      simp [wpackBuffer, hlen, hcap, hu, complete]
  · exact ⟨_, if_pos hlen⟩

section
variable {s : State} (h : GoodBuffer s)
include h

theorem execUpdate_answers : ∃ t, execUpdate s = .next t := by
  cases hv : s.valid with
  | false => exact ⟨_, if_pos hv⟩
  | true =>
    by_cases hlen : s.inbuf.length = s.opw.toNat * s.oph.toNat
    · cases hout : s.rectOperand.outside s with
      | true => simp [execUpdate, hv, hlen, hout, complete]
      | false =>
        obtain ⟨u, hu⟩ := drawRect_of_good (r := s.rectOperand) hv h
        simp [execUpdate, hv, hlen, hout, hu, complete]
    · simp [execUpdate, hv, hlen, complete]

theorem execExtract_answers : ∃ t, execExtract s = .next t := by
  cases hv : s.valid with
  | false => exact ⟨_, if_pos hv⟩
  | true =>
    cases hout : s.rectOperand.outside s with
    | true => simp [execExtract, hv, hout, complete]
    | false =>
      obtain ⟨bytes, hbytes⟩ :=
        readBytes_of_good hv h fun a ha => copyAddresses_lt_storelen hv h.1 hout ha
      simp [execExtract, hv, hout, hbytes, complete]

theorem execAsvec_answers : ∃ t, execAsvec s = .next t := by
  cases hv : s.valid with
  | false => exact ⟨_, if_pos hv⟩
  | true =>
    obtain ⟨bytes, hbytes⟩ := readBytes_of_good hv h fun _ ha => List.mem_range.1 ha
    simp [execAsvec, hv, hbytes, complete]

/-- Every command answers with a next state on a good buffer, or with none (60_exceptions.md R170). -/
theorem exec_answers (i : Instr) : ∃ t, exec i s = .next t := by
  cases i with
  | elen | baddrH | baddrV | norm => exact ⟨_, rfl⟩
  | newH | newV => exact newBuffer_answers _ s
  | wdataH | wdataV => exact wdataBuffer_answers _ s
  | wpackH | wpackV => exact wpackBuffer_answers _ s
  | update => exact execUpdate_answers h
  | extract => exact execExtract_answers h
  | asvec => exact execAsvec_answers h

/-! ### The turns -/

theorem runPending_answers : ∃ t, runPending s = .next t := by
  cases hd : decode s.pending with
  | ok i => simpa [runPending, hd] using exec_answers h i
  | error e => simp [runPending, hd, complete]

theorem engineTurn_answers : ∃ t, engineTurn s = .next t := by
  cases hb : s.busy with
  | true => simpa [engineTurn, hb] using runPending_answers h
  | false => simp [engineTurn, hb]

end

/-- The one transaction that is not well formed is a LOADIN over IN_CAP (30_encoding.md R70). -/
theorem transaction_eq_false {cfg : Config} {x : Transaction} (h : WellFormed.transaction cfg x = false) :
    ∃ bytes, x = .loadin bytes ∧ cfg.inCap.val < bytes.length := by
  cases x with
  | loadin bytes => exact ⟨bytes, rfl, Nat.lt_of_not_le (of_decide_eq_false h)⟩
  | wr | rd | readout => simp [WellFormed.transaction] at h

/-- A host turn never faults, and refuses a LOADIN over IN_CAP only. -/
theorem hostTurn_answers_or_refuses (x : Transaction) (s : State) :
    (∃ t, hostTurn x s = .next t) ∨
      ∃ bytes, x = .loadin bytes ∧ s.cfg.inCap.val < bytes.length ∧
        hostTurn x s = .refused (.loadinTooLong bytes.length) := by
  unfold hostTurn
  split
  next hwf =>
    obtain ⟨bytes, rfl, hlong⟩ := transaction_eq_false hwf
    exact .inr ⟨bytes, rfl, hlong, rfl⟩
  next =>
    split
    · exact .inl ⟨_, rfl⟩
    · exact .inl ⟨_, rfl⟩

theorem goodBuffer_of_inv {s : State} (h : Inv s) : GoodBuffer s := by
  obtain ⟨-, -, hbuf, hwritten, -⟩ := h
  exact ⟨hbuf, hwritten⟩

/-- Settles O23: a reset always answers, the engine does on the invariant's good buffer, and the host's turn refuses only
a LOADIN over IN_CAP. -/
theorem goodStatesNeverFault : Obligations.GoodStatesNeverFault := by
  intro s hinv hz
  have hgood : GoodBuffer s.dropTurn := goodBuffer_of_inv hinv
  cases hn : s.nextTurn with
  | reset => exact .inl ⟨s.dropTurn.afterReset, by simp [step, hn, takeTurn]⟩
  | engine => exact .inl (by simpa [step, hn, takeTurn, hz] using engineTurn_answers hgood)
  | host x => simpa [step, hn, takeTurn, hz] using hostTurn_answers_or_refuses x s.dropTurn

end Sys2Proof.Machine
end

section
/-! SUPPORT. OUTBUF is an independent copy (20_memory.md R65, 10_state.md R41). -/

namespace Sys2Proof.Machine

/-- The engine changes OUTBUF with a reader only. -/
theorem decode_of_runPending_outbuf_ne {s t : State} (h : runPending s = .next t) (hne : t.outbuf ≠ s.outbuf) :
    decode s.pending = .ok .extract ∨ decode s.pending = .ok .asvec := by
  rcases runPending_eq_next h with ⟨i, hd, hi⟩ | ⟨e, -, rfl⟩
  · obtain ⟨u, c, he, rfl⟩ := exec_completes hi
    by_cases hx : i = .extract
    · exact .inl (hx ▸ hd)
    by_cases ha : i = .asvec
    · exact .inr (ha ▸ hd)
    exact absurd (commandEffect_outbuf he hx ha) hne
  · exact absurd rfl hne

theorem hostTurn_outbuf {x : Transaction} {s t : State} (h : hostTurn x s = .next t) : t.outbuf = s.outbuf := by
  obtain ⟨-, ⟨-, -, rfl⟩ | ⟨-, rfl⟩⟩ := hostTurn_eq_next h
  · rfl
  · rw [transact_frame]

/-- Settles O30: neither an idle turn nor a transaction writes OUTBUF, and of the commands only the two readers do. -/
theorem outbufChangesOnlyByReaders : Obligations.OutbufChangesOnlyByReaders := by
  intro s t hs hne
  rcases step_eq_next hs with ⟨hn, -⟩ | ⟨-, ⟨-, -, rfl⟩ | ⟨hn, hb, hr⟩ | ⟨x, -, hx⟩⟩
  · exact .inl hn
  · exact absurd rfl hne
  · exact .inr ⟨hn, hb, (decode_of_runPending_outbuf_ne hr hne :)⟩
  · exact absurd (hostTurn_outbuf hx) hne

end Sys2Proof.Machine
end

section
/-! SUPPORT. The command word (30_encoding.md R71 to R76): a word whose reserved bits are clear is put together from its
two fields again, so it decodes to a command exactly when it is that command's encoding, and the legal words are the
encodings of the 13 commands. -/

namespace Sys2Proof

/-- With RSV = 0 the fields OP and O hold every bit of the word (30_encoding.md R71). -/
theorem commandWord_fields {v : Word} (h : fieldRsv v = 0#27) : commandWord (fieldOp v) (fieldO v) = v := by
  have hhigh : fieldRsv v ++ fieldO v = v.extractLsb' 4 28 :=
    BitVec.extractLsb'_append_extractLsb'_eq_extractLsb' rfl
  have hall : v.extractLsb' 4 28 ++ fieldOp v = v.extractLsb' 0 32 :=
    BitVec.extractLsb'_append_extractLsb'_eq_extractLsb' rfl
  rw [commandWord, ← h, hhigh, hall, BitVec.extractLsb'_eq_self]

/-- A command that does not use O decodes from the word with O = 0 only (30_encoding.md R74). -/
theorem encode_of_decodePlain {op : BitVec 4} {o : BitVec 1} {c i : Instr} (hc : encode c = commandWord op 0)
    (h : decodePlain o c = .ok i) : encode i = commandWord op o := by
  rcases BitVec.eq_zero_or_eq_one o with rfl | rfl
  · cases h
    exact hc
  · cases h

/-- An oriented command has one word for each value of O (30_encoding.md R73). -/
theorem encode_of_decodeOriented {op : BitVec 4} {o : BitVec 1} {ch cv i : Instr}
    (hh : encode ch = commandWord op 0) (hv : encode cv = commandWord op 1)
    (h : decodeOriented o ch cv = .ok i) : encode i = commandWord op o := by
  rcases BitVec.eq_zero_or_eq_one o with rfl | rfl
  · cases h
    exact hh
  · cases h
    exact hv

theorem decode_encode (i : Instr) : decode (encode i) = .ok i := by
  cases i <;> rfl

/-- The decoder accepts a word under the opcode of the command it answers, with nothing in RSV and with the O of the
command, so the word is the command's encoding. -/
theorem encode_of_decode {v : Word} {i : Instr} (h : decode v = .ok i) : encode i = v := by
  unfold decode at h
  split at h
  next => cases h
  next hr =>
    rw [← commandWord_fields (not_not.1 hr)]
    split at h
    case h_10 => cases h
    case h_2 hop | h_4 hop | h_5 hop | h_6 hop =>
      rw [hop]
      exact encode_of_decodeOriented rfl rfl h
    case h_1 hop | h_3 hop | h_7 hop | h_8 hop | h_9 hop =>
      rw [hop]
      exact encode_of_decodePlain rfl h

/-- Settles O2: the decoder undoes the encoder on each command, and a word it accepts has the command's three fields. -/
theorem decodeAndEncodeAgree : Obligations.DecodeAndEncodeAgree :=
  ⟨decode_encode, fun _ _ h => (encode_of_decode h).symm⟩

/-- Settles O1: the words of the opcode map are the encodings of the commands. -/
theorem listedWordsDecode : Obligations.ListedWordsDecode :=
  ⟨decode_encode .elen, decode_encode .baddrH, decode_encode .baddrV, decode_encode .norm, decode_encode .newH,
    decode_encode .newV, decode_encode .wdataH, decode_encode .wdataV, decode_encode .wpackH, decode_encode .wpackV,
    decode_encode .update, decode_encode .extract, decode_encode .asvec⟩

/-! ### The legal words -/

/-- The commands in the order of the opcode map (30_encoding.md R72). -/
def commands : List Instr :=
  [.elen, .baddrH, .baddrV, .norm, .newH, .newV, .wdataH, .wdataV, .wpackH, .wpackV, .update, .extract, .asvec]

theorem mem_commands (i : Instr) : i ∈ commands := by
  cases i <;> decide

theorem decodes_iff_mem_encodings (v : Word) : (∃ i, decode v = .ok i) ↔ v ∈ commands.map encode := by
  rw [List.mem_map]
  constructor
  · rintro ⟨i, h⟩
    exact ⟨i, mem_commands i, encode_of_decode h⟩
  · rintro ⟨i, -, rfl⟩
    exact ⟨i, decode_encode i⟩

/-- The three checks of 30_encoding.md R74 as statements on the word's number. -/
theorem WellFormed.word_eq_true_iff (v : Word) : WellFormed.word v = true ↔
    v.toNat / 32 = 0 ∧ (1 ≤ v.toNat % 16 ∧ v.toNat % 16 ≤ 9) ∧
      (v.toNat / 16 % 2 = 0 ∨ v.toNat % 16 = 2 ∨ v.toNat % 16 = 4 ∨ v.toNat % 16 = 5 ∨ v.toNat % 16 = 6) := by
  simp [WellFormed.word, reservedClear, opcodeAssigned, orientationAllowed, and_assoc]

/-- Below 32 the checks leave 13 numbers, those of the opcode map. -/
theorem mem_encodings_iff_wellFormed (v : Word) : v ∈ commands.map encode ↔ WellFormed.word v = true :=
  calc v ∈ commands.map encode
    _ ↔ v.toNat ∈ (commands.map encode).map BitVec.toNat := (List.mem_map_of_injective BitVec.toNat_injective).symm
    _ ↔ v.toNat ∈ [0x01, 0x02, 0x12, 0x03, 0x04, 0x14, 0x05, 0x15, 0x06, 0x16, 0x07, 0x08, 0x09] := Iff.rfl
    _ ↔ WellFormed.word v = true := by
      rw [WellFormed.word_eq_true_iff]
      simp only [List.mem_cons, List.not_mem_nil, or_false]
      omega

/-- The decoder accepts exactly the legal words (30_encoding.md R74, R76). -/
theorem decodes_iff_wellFormed (v : Word) : (∃ i, decode v = .ok i) ↔ WellFormed.word v = true :=
  (decodes_iff_mem_encodings v).trans (mem_encodings_iff_wellFormed v)

namespace Machine

/-- An illegal word completes with ERR_ILLEGAL and has no other effect (60_exceptions.md R174). -/
theorem runPending_of_illegal {s : State} (h : ¬∃ i, decode s.pending = .ok i) :
    runPending s = complete .errIllegal s := by
  cases hd : decode s.pending with
  | ok i => exact absurd ⟨i, hd⟩ h
  | error e => rw [runPending, hd]

/-- Settles O3: the words that decode are the 13 encodings, which are the words that pass the three checks. -/
theorem legalWordsAreTheThirteen : Obligations.LegalWordsAreTheThirteen :=
  ⟨fun v => (decodes_iff_wellFormed v).trans (WellFormed.word_eq_true_iff v), decodes_iff_mem_encodings,
    fun _ h => runPending_of_illegal h⟩

end Machine

end Sys2Proof
end

section
/-! SUPPORT. The host's transactions on the two byte buffers (30_encoding.md R70, 10_state.md R40, R41). -/

namespace Sys2Proof.Machine

/-- A transaction the block does not accept is refused, BUSY or not (log entry 8). -/
theorem step_of_not_wellFormed {s : State} {x : Transaction} (hz : s.hazard = none) (hn : s.nextTurn = .host x)
    (hwf : WellFormed.transaction s.cfg x = false) : step s = .refused (.loadinTooLong (loadinLength x)) := by
  simp [step, hn, takeTurn, hz, hostTurn, hwf]

/-- Settles O13: the length is all that LOADIN's form asks, and INBUF is all it replaces. -/
theorem loadinReplacesInbuf : Obligations.LoadinReplacesInbuf := by
  intro s bytes hz hn
  refine ⟨fun hb hfits => ?_, fun hlong => ?_⟩
  · exact step_of_transaction hz hn (.inl hb) (decide_eq_true hfits)
  · exact step_of_not_wellFormed hz hn (decide_eq_false (Nat.not_le_of_lt hlong))

/-- Settles O14: READOUT is well formed in every state, and it only records what it returns. -/
theorem readoutReturnsOutbuf : Obligations.ReadoutReturnsOutbuf :=
  fun _ hz hb hn => step_of_transaction hz hn (.inl hb) rfl

end Sys2Proof.Machine
end

section
/-! SUPPORT. The calculator's functions and commands (40_calculator.md R100 to R112): the bounds that let a result survive
its 32-bit register, and the pixels that own a bit of the store and are drawn one bit at a time (R109, R113 to R115). -/

namespace Sys2Proof.Machine

open Sys2Proof.Safety

/-! ### The eight-length (R100 to R102) -/

/-- The three cases of R100 are a division by 8 rounded up, and no less than 1. -/
theorem eightLength_eq_max (n : Nat) : eightLength n = max 1 ((n + 7) / 8) := by
  unfold eightLength
  split
  · omega
  · split <;> omega

/-- The last byte along the packed axis holds at least one pixel (R102). -/
theorem mul_eightLength_pred_lt {n : Nat} (h : 1 ≤ n) : 8 * (eightLength n - 1) < n := by
  rw [eightLength_eq_max]
  omega

/-- Settles O34: the eight-length is the rounded division, which covers its extent and wastes no byte. -/
theorem eightLengthProperties : Obligations.EightLengthProperties :=
  ⟨fun n => ⟨eightLength_pos n, eightLength_eq_max n, le_mul_eightLength n, mul_eightLength_pred_lt⟩, by decide⟩

/-- Settles O33: the eight-length of a 32-bit operand fits RES0. -/
theorem elenResult : Obligations.ElenResult :=
  ⟨decode_encode .elen, fun s => ⟨_, rfl, rfl, eightLength_toNat s.opw⟩⟩

/-! ### Bit addressing (R103 to R108) -/

/-- A number below 2^32 keeps its value in a result register (10_state.md R27). -/
theorem ofNat_toNat_of_lt {n : Nat} (h : n < 2 ^ 32) : (BitVec.ofNat 32 n).toNat = n := by
  rw [BitVec.toNat_ofNat, Nat.mod_eq_of_lt h]

theorem bitAddress_bit_lt (o : Orientation) (x y stride : Nat) : (bitAddress o x y stride).bit < 8 := by
  cases o <;> exact Nat.mod_lt _ (by decide)

/-- BADDR in either orientation: only the index can pass 2^32, and it is reduced when it is written (R108). -/
theorem baddr_result (o : Orientation) (s : State) :
    ∃ t, baddr o s = .next t ∧
      t = { s with res0 := t.res0, res1 := t.res1, res2 := t.res2, res3 := t.res3, code := 0, busy := false } ∧
      t.res0.toNat = (bitAddress o s.opx.toNat s.opy.toNat s.opw.toNat).index % 2 ^ 32 ∧
      t.res1.toNat = 2 ^ (bitAddress o s.opx.toNat s.opy.toNat s.opw.toNat).phys ∧
      t.res2.toNat = (bitAddress o s.opx.toNat s.opy.toNat s.opw.toNat).bit ∧
      t.res3.toNat = (bitAddress o s.opx.toNat s.opy.toNat s.opw.toNat).phys := by
  have hbit := bitAddress_bit_lt o s.opx.toNat s.opy.toNat s.opw.toNat
  have hphys := bitAddress_phys_lt o s.opx.toNat s.opy.toNat s.opw.toNat
  refine ⟨_, rfl, rfl, BitVec.toNat_ofNat _ _, ?_, ?_, ?_⟩
  · exact (ofNat_toNat_of_lt ((BitVec.isLt _).trans (by decide))).trans (maskOf_toNat hphys)
  · exact ofNat_toNat_of_lt (hbit.trans (by decide))
  · exact ofNat_toNat_of_lt (hphys.trans (by decide))

/-- Settles O35: BADDR with the Horizontal bit address. -/
theorem baddrHorizontalResult : Obligations.BaddrHorizontalResult :=
  ⟨decode_encode .baddrH, baddr_result .horizontal⟩

/-- Settles O36: BADDR with the Vertical bit address. -/
theorem baddrVerticalResult : Obligations.BaddrVerticalResult :=
  ⟨decode_encode .baddrV, baddr_result .vertical⟩

/-! ### The byte-aligned span (R110 to R112) -/

theorem normalizeSpan_length_le (offset extent : Nat) : (normalizeSpan offset extent).length ≤ extent / 8 + 2 := by
  unfold normalizeSpan
  dsimp only
  split <;> omega

/-- The span of an extent that is not empty ends with the byte of the extent's last pixel. -/
theorem normalizeSpan_end {extent : Nat} (offset : Nat) (h : 1 ≤ extent) :
    (normalizeSpan offset extent).start + (normalizeSpan offset extent).length = (offset + extent - 1) / 8 + 1 := by
  have hle : offset / 8 ≤ (offset + extent - 1) / 8 := Nat.div_le_div_right (by omega)
  simp only [normalizeSpan, if_neg (Nat.ne_of_gt h)]
  omega

/-- Byte `k` lies in the span exactly when a pixel of the extent does in byte `k`: its first pixel, or the extent's first
pixel where the byte begins before the extent. -/
theorem mem_normalizeSpan_iff {offset extent : Nat} (h : 1 ≤ extent) (k : Nat) :
    ((normalizeSpan offset extent).start ≤ k ∧
        k < (normalizeSpan offset extent).start + (normalizeSpan offset extent).length) ↔
      ∃ q, offset ≤ q ∧ q < offset + extent ∧ q / 8 = k := by
  have hstart : (normalizeSpan offset extent).start = offset / 8 := rfl
  rw [normalizeSpan_end offset h, hstart]
  constructor
  · rintro ⟨hlo, hhi⟩
    exact ⟨max offset (8 * k), by omega, by omega, by omega⟩
  · rintro ⟨q, hlo, hhi, rfl⟩
    omega

theorem normalizeSpan_length_pos {extent : Nat} (offset : Nat) (h : 1 ≤ extent) :
    1 ≤ (normalizeSpan offset extent).length := by
  simp only [normalizeSpan, if_neg (Nat.ne_of_gt h)]
  omega

/-- Settles O39: the span runs from the byte of the extent's first pixel to the byte of its last. -/
theorem spanIsMinimalAndCovering : Obligations.SpanIsMinimalAndCovering :=
  fun offset extent h =>
    ⟨mem_normalizeSpan_iff h, normalizeSpan_length_le offset extent, normalizeSpan_length_pos offset h⟩

/-- Settles O38: the span of two 32-bit operands fits its result registers. -/
theorem normResult : Obligations.NormResult := by
  refine ⟨decode_encode .norm, fun s => ⟨_, rfl, rfl, ?_, ?_⟩⟩
  · exact ofNat_toNat_of_lt ((Nat.div_le_self _ 8).trans_lt s.opx.isLt)
  · have hlen := normalizeSpan_length_le s.opx.toNat s.opw.toNat
    have hext := s.opw.isLt
    exact ofNat_toNat_of_lt (hlen.trans_lt (by omega))

/-! ### The pixels of a buffer (R109, R113 to R115) -/

/-- A one-hot mask names its bit. -/
theorem maskOf_inj {j k : Nat} (hj : j < 8) (hk : k < 8) (h : maskOf j = maskOf k) : j = k := by
  have hbit := congrArg (fun m => m.getLsbD j) h
  simpa [maskOf_getLsbD hj, maskOf_getLsbD hk] using hbit

/-- A pixel inside a buffer has its byte below STORELEN (R109). -/
theorem pixelAddress_lt_storelen {s : State} (hv : s.valid = true) (hb : BufferInv s) {x y : Nat}
    (hx : x < s.width.toNat) (hy : y < s.height.toNat) : (s.pixelAddress x y).index < s.storelen.toNat := by
  obtain ⟨hstride, hlen, -⟩ := stride_of_bufferInv hv hb
  rw [State.pixelAddress, hstride, hlen]
  exact bitAddress_index_lt _ hx hy

/-- Settles O37: STORELEN is a 32-bit register, and a mask stands for its physical bit. -/
theorem pixelsOwnTheirBits : Obligations.PixelsOwnTheirBits := by
  intro s hv hb
  refine ⟨fun x y hx hy => ?_, fun x y x' y' hx _ hx' _ hindex hmask => ?_⟩
  · have hlt := pixelAddress_lt_storelen hv hb hx hy
    exact ⟨hlt, hlt.trans s.storelen.isLt, bitAddress_phys_lt _ _ _ _⟩
  · exact pixelAddress_inj hv hb hx hx' hindex
      (maskOf_inj (bitAddress_phys_lt _ _ _ _) (bitAddress_phys_lt _ _ _ _) hmask)

/-- The bit a byte of pixel data is stored as (R113, R114). -/
theorem monoBit_mono (v : Byte) : monoBit (mono v) = decide (v ≠ 0) := by
  by_cases hv : v = 0
  · subst hv
    rfl
  · rw [mono, if_neg hv, decide_eq_true hv, monoBit]

/-- Settles O40: the pixel's byte is in the store and written, so `draw` answers, and it writes one bit. -/
theorem drawChangesOneBit : Obligations.DrawChangesOneBit := by
  intro s x y v hv hgood hx hy
  obtain ⟨hin, hwritten⟩ := pixelAddress_inStore hv hgood hx hy
  obtain ⟨t, ht⟩ := draw_of_written (c := mono v) hin hwritten
  obtain ⟨hframe, hpixel, hother⟩ := draw_eq_ok ht
  exact ⟨t, ht, hframe, hpixel.trans (congrArg some (monoBit_mono v)), hother⟩

end Sys2Proof.Machine
end

section
/-! SUPPORT. UPDATE (41_transfer.md R121 to R125): the pixels it draws and where in INBUF they come from, the bits it
leaves, and that a second UPDATE finds every pixel already drawn. -/

namespace Sys2Proof.Machine

open Sys2Proof.Safety

/-! ### What UPDATE answers, check by check (R121) -/

section
variable {s : State}

theorem execUpdate_of_noBuffer (hv : s.valid = false) : execUpdate s = complete .errNoBuffer s := by
  rw [execUpdate, if_pos hv]

theorem execUpdate_of_length_ne (hv : s.valid = true) (hlen : s.inbuf.length ≠ s.opw.toNat * s.oph.toNat) :
    execUpdate s = complete .errLength s := by
  rw [execUpdate, if_neg (by simp [hv]), if_pos hlen]

variable (hv : s.valid = true) (hlen : s.inbuf.length = s.opw.toNat * s.oph.toNat)
include hv hlen

theorem execUpdate_of_outside (hout : s.rectOperand.outside s = true) : execUpdate s = complete .ok s := by
  simp [execUpdate, hv, hlen, hout]

theorem execUpdate_of_inside (hin : s.rectOperand.outside s = false) :
    execUpdate s = completeBody (drawRect s.rectOperand s) := by
  simp [execUpdate, hv, hlen, hin]

end

/-- Of two commands the orientation chooses WDATA's (42_construction.md R152). -/
theorem exec_wdata (o : Orientation) (s : State) :
    exec (if o = .horizontal then .wdataH else .wdataV) s = wdataBuffer o s := by
  cases o <;> rfl

theorem wdataBuffer_of_built {o : Orientation} {s u : State} (hlen : s.inbuf.length = s.opw.toNat * s.oph.toNat)
    (hcap : s.requiredOperand o ≤ s.cfg.storeCap.val) (hu : build o (zeroBytes o s) s = .ok u) :
    wdataBuffer o s = completeBody (drawRect u.fullRect u) := by
  rw [wdataBuffer, if_neg (not_not.2 hlen), if_neg (Nat.not_lt.2 hcap), hu]

/-! ### Where in INBUF the pixels come from (R122) -/

theorem inPixel_of_getElem? {s : State} {k : Nat} {v : Byte} (h : s.inbuf[k]? = some v) : s.inPixel k = mono v := by
  rw [State.inPixel, List.getD_eq_getElem?_getD, h, Option.getD_some]

/-- Below its length INBUF has the byte the pixel is made of. -/
theorem inPixel_of_lt {s : State} {k : Nat} (h : k < s.inbuf.length) :
    ∃ v, s.inbuf[k]? = some v ∧ s.inPixel k = mono v :=
  ⟨s.inbuf[k], List.getElem?_eq_getElem h, inPixel_of_getElem? (List.getElem?_eq_getElem h)⟩

/-- Value (i, j) of a rectangle of `w` by `h` values in row-major order stands before the end. -/
theorem rowMajor_lt {i j w h : Nat} (hi : i < w) (hj : j < h) : j * w + i < w * h := by
  rw [Nat.mul_comm j]
  exact mul_add_lt hj hi

/-- The whole buffer is clamped to itself (42_construction.md R152). -/
theorem mem_clampedPixels_fullRect {s : State} {p : PixelWrite} :
    p ∈ clampedPixels s.fullRect s ↔
      ∃ x y, x < s.width.toNat ∧ y < s.height.toNat ∧ p = ⟨x, y, s.inPixel (y * s.width.toNat + x)⟩ := by
  simp [mem_clampedPixels, State.fullRect, effWidth, effHeight]

/-- Settles O50: the index of each drawn pixel is a place in a row-major rectangle of INBUF's length. -/
theorem updateReadsInsideInbuf : Obligations.UpdateReadsInsideInbuf := by
  refine ⟨fun s hlen => ?_, fun s o hlen hcap => ?_⟩
  · have hindex : ∀ i j, i < effWidth s.rectOperand s → j < effHeight s.rectOperand s →
        j * s.opw.toNat + i < s.inbuf.length := fun i j hi hj =>
      hlen ▸ rowMajor_lt (lt_min_iff.1 hi).1 (lt_min_iff.1 hj).1
    refine ⟨fun i j hi hj => ⟨hindex i j hi hj, mem_clampedPixels.2 ⟨i, j, hi, hj, rfl⟩⟩, fun p hp => ?_,
      fun hv hin => execUpdate_of_inside hv hlen hin⟩
    obtain ⟨i, j, hi, hj, rfl⟩ := mem_clampedPixels.1 hp
    obtain ⟨v, hread, hmono⟩ := inPixel_of_lt (hindex i j hi hj)
    exact ⟨i, j, v, hi, hj, hread, congrArg _ hmono⟩
  · obtain ⟨u, hu⟩ := build_of_fits (bytes := zeroBytes o s) List.length_replicate hcap
    refine ⟨u, hu, (exec_wdata o s).trans (wdataBuffer_of_built hlen hcap hu), ?_⟩
    obtain ⟨m, rfl⟩ := build_onlyBuffer hu
    have hindex : ∀ x y, x < s.opw.toNat → y < s.oph.toNat → y * s.opw.toNat + x < s.inbuf.length :=
      fun x y hx hy => hlen ▸ rowMajor_lt hx hy
    refine ⟨fun x y hx hy => ⟨hindex x y hx hy, mem_clampedPixels_fullRect.2 ⟨x, y, hx, hy, rfl⟩⟩, fun p hp => ?_⟩
    obtain ⟨x, y, hx, hy, rfl⟩ := mem_clampedPixels_fullRect.1 hp
    obtain ⟨v, hread, hmono⟩ := inPixel_of_lt (hindex x y hx hy)
    exact ⟨x, y, v, hx, hy, hread, congrArg _ hmono⟩

/-! ### What UPDATE writes and what it leaves (R124, R125) -/

/-- Settles O49: the loop draws each pixel of the clamped region and no other bit. -/
theorem updateWritesClampedRegion : Obligations.UpdateWritesClampedRegion := by
  intro s hv hgood hlen hx hy
  obtain ⟨u, hu⟩ := drawRect_of_good (r := s.rectOperand) hv hgood
  have hexec := execUpdate_of_inside hv hlen (outside_eq_false.2 ⟨hx, hy⟩)
  rw [hu] at hexec
  have hpixel := fun i j => drawRect_pixel (i := i) (j := j) hv hgood.1 hu
  have hother := fun a k => drawRect_other (a := a) (k := k) hu
  obtain ⟨m, rfl⟩ := drawRect_onlyStore hu
  refine ⟨_, hexec, rfl, fun i j v hi hj hread => ?_, fun a k => hother a k⟩
  rw [← monoBit_mono, ← inPixel_of_getElem? hread]
  exact hpixel i j hi hj

theorem commandEffect_update_onlyStore {s u : State} (he : CommandEffect s .update u) : ∃ m, u = s.setStore m := by
  cases he with
  | nothing => exact ⟨s.store, rfl⟩
  | results hi => simp [isCalculator] at hi
  | built hi | builtAndDrawn hi => simp [isConstruction] at hi
  | drawn hdraw => exact drawRect_onlyStore hdraw

/-- Settles O52: the pixels of the clamped region are inside the buffer and inside the rectangle, so a bit of none of
them stays; and drawing writes below STORELEN only. -/
theorem updateKeepsPaddingAndOutside : Obligations.UpdateKeepsPaddingAndOutside := by
  intro s t hv hb h
  obtain ⟨u, c, he, rfl⟩ := exec_completes h
  obtain ⟨m, rfl⟩ := commandEffect_update_onlyStore he
  have hwidth : ∀ i, i < effWidth s.rectOperand s → i < s.opw.toNat ∧ s.opx.toNat + i < s.width.toNat :=
    fun i hi => by simp only [effWidth, State.rectOperand] at hi; omega
  have hheight : ∀ j, j < effHeight s.rectOperand s → j < s.oph.toNat ∧ s.opy.toNat + j < s.height.toNat :=
    fun j hj => by simp only [effHeight, State.rectOperand] at hj; omega
  refine ⟨fun a k hk hpad => ?_, fun a ha => commandEffect_read_above he ha, fun x y hx hy hout => ?_⟩
  · exact commandEffect_update_storeBit he hk fun i j hi hj => hpad _ _ (hwidth i hi).2 (hheight j hj).2
  · refine commandEffect_update_storeBit he (bitAddress_phys_lt _ _ _ _) fun i j hi hj => ?_
    obtain ⟨hi, hxi⟩ := hwidth i hi
    obtain ⟨hj, hyj⟩ := hheight j hj
    by_contra hcon
    rw [not_or, not_not, not_not] at hcon
    obtain ⟨rfl, rfl⟩ := pixelAddress_inj hv hb hx hxi hcon.1 hcon.2
    omega

/-! ### A second UPDATE (R124) -/

/-- Drawing a bit the colour it has leaves the byte. -/
theorem drawnByte_self {k : Nat} {c : Mono} {v : Byte} (hk : k < 8) (h : v.getLsbD k = monoBit c) :
    drawnByte (maskOf k) c v = v := by
  refine BitVec.eq_of_getLsbD_eq fun j hj => ?_
  rw [drawnByte_getLsbD hk hj]
  split
  · next hjk => rw [hjk, h]
  · rfl

theorem draw_self {x y : Nat} {c : Mono} {s : State} (hwf : Memory.wf s.store = true)
    (hin : s.inStore (s.pixelAddress x y).index = true) (hp : pixel s x y = some (monoBit c)) :
    draw x y c s = .ok s := by
  obtain ⟨v, hv, hbit⟩ := Option.map_eq_some_iff.1 hp
  have hk : (s.pixelAddress x y).phys < 8 := bitAddress_phys_lt _ _ _ _
  refine drawByte_eq_ok.2 ⟨hin, v, hv, ?_⟩
  rw [drawnByte_self hk hbit, Memory.write_read_self hwf hv, State.setStore_self]

/-- Drawing pixels that have their colours changes nothing (20_memory.md R52). -/
theorem drawAll_self {ps : List PixelWrite} {s : State} (hwf : Memory.wf s.store = true)
    (hin : ∀ p ∈ ps, s.inStore (s.pixelAddress p.x p.y).index = true)
    (hp : ∀ p ∈ ps, pixel s p.x p.y = some (monoBit p.c)) : drawAll ps s = .ok s := by
  induction ps with
  | nil => rfl
  | cons p ps ih =>
    rw [List.forall_mem_cons] at hin hp
    rw [drawAll, draw_self hwf hin.1 hp.1]
    exact ih hin.2 hp.2

theorem drawAll_wf {ps : List PixelWrite} {s t : State} (h : drawAll ps s = .ok t)
    (hwf : Memory.wf s.store = true) : Memory.wf t.store = true := by
  induction ps generalizing s with
  | nil =>
    obtain rfl := Except.ok.inj h
    exact hwf
  | cons p ps ih =>
    cases hd : draw p.x p.y p.c s with
    | error f => simp [drawAll, hd] at h
    | ok u =>
      simp only [drawAll, hd] at h
      obtain ⟨-, v, -, rfl⟩ := drawByte_eq_ok.1 hd
      exact ih h (Memory.wf_write _ _ hwf)

/-- The loop of UPDATE, run again after the command, finds every pixel of the clamped region drawn. -/
theorem drawRect_again {r : Rect} {s u : State} (hv : s.valid = true) (hgood : GoodBuffer s)
    (hwf : Memory.wf s.store = true) (hu : drawRect r s = .ok u) (c : Code) :
    drawRect r (u.finish c) = .ok (u.finish c) := by
  have hwf' := drawAll_wf hu hwf
  have hpixel := fun i j => drawRect_pixel (i := i) (j := j) hv hgood.1 hu
  obtain ⟨m, rfl⟩ := drawRect_onlyStore hu
  refine drawAll_self hwf' (fun p hp => ?_) (fun p hp => ?_)
  · obtain ⟨hx, hy⟩ := clampedPixels_inside hp
    exact (pixelAddress_inStore hv hgood hx hy).1
  · obtain ⟨i, j, hi, hj, rfl⟩ := mem_clampedPixels.1 hp
    exact hpixel i j hi hj

/-- Settles O51: the second UPDATE takes the branch of the first, and where the first drew it draws nothing new. -/
theorem updateIsIdempotent : Obligations.UpdateIsIdempotent := by
  intro s t hgood hwf h
  rcases execUpdate_eq_next h with ⟨hv, rfl⟩ | ⟨hv, hlen, rfl⟩ | ⟨hv, hlen, hout, rfl⟩ | ⟨hv, hlen, hin, u, hu, rfl⟩
  · exact execUpdate_of_noBuffer (s := s.finish _) hv
  · exact execUpdate_of_length_ne (s := s.finish _) hv hlen
  · exact execUpdate_of_outside (s := s.finish _) hv hlen hout
  · have hagain := drawRect_again hv hgood hwf hu .ok
    obtain ⟨m, rfl⟩ := drawRect_onlyStore hu
    refine (execUpdate_of_inside (s := (s.setStore m).finish _) hv hlen hin).trans ?_
    exact congrArg completeBody hagain

end Sys2Proof.Machine
end

section
/-! SUPPORT. EXTRACT and ASVEC (41_transfer.md R126 to R133): the bytes they copy and the rectangle EXTRACT reports. In
both orientations the copy is the reported rectangle read row by row, `stride` bytes of the store to a row. -/

namespace Sys2Proof.Machine

open Sys2Proof.Safety

/-! ### The copied rectangle (R126, R128) -/

/-- The store address of byte (x, y) of a rectangle in EXTRACT's units (R129): bytes along the packed axis, pixels along
the other, `stride` bytes to a row. -/
def State.rectByte (s : State) (r : Rect) (x y : Nat) : Nat :=
  s.stride * (r.y + y) + r.x + x

/-- The addresses of `copy(D)` are those of the reported rectangle in row-major order, in both orientations. -/
theorem copyAddresses_computePart (r : Rect) (s : State) :
    copyAddresses (computePart r s) s =
      (List.range (computePart r s).rect.h).flatMap fun y =>
        (List.range (computePart r s).rect.w).map fun x => s.rectByte (computePart r s).rect x y := by
  unfold computePart State.rectByte State.stride
  cases s.orient <;> rfl

theorem copyAddresses_getElem {r : Rect} {s : State} {x y : Nat} (hx : x < (computePart r s).rect.w)
    (hy : y < (computePart r s).rect.h) :
    (copyAddresses (computePart r s) s)[y * (computePart r s).rect.w + x]? =
      some (s.rectByte (computePart r s).rect x y) := by
  rw [copyAddresses_computePart]
  exact getElem_grid (fun y x => s.rectByte (computePart r s).rect x y) hy hx

/-- The copied rectangle's sides are the clipped lengths, in the order of the axes. -/
theorem computePart_rect_size (r : Rect) (s : State) :
    (computePart r s).rect.w * (computePart r s).rect.h = (computePart r s).plen * (computePart r s).olen := by
  unfold computePart
  cases s.orient
  · rfl
  · exact Nat.mul_comm _ _

/-- The reported rectangle fits the result registers. -/
theorem computePart_rect_lt (s : State) :
    (computePart s.rectOperand s).rect.x < 2 ^ 32 ∧ (computePart s.rectOperand s).rect.y < 2 ^ 32 ∧
      (computePart s.rectOperand s).rect.w < 2 ^ 32 ∧ (computePart s.rectOperand s).rect.h < 2 ^ 32 := by
  have hx := s.opx.isLt
  have hy := s.opy.isLt
  have hw := s.width.isLt
  have hh := s.height.isLt
  have he := s.eightlen.isLt
  unfold computePart
  cases s.orient <;> simp only [normalizeSpan, State.rectOperand] <;> omega

/-! ### What EXTRACT answers (R127) -/

theorem execExtract_of_noBuffer {s : State} (hv : s.valid = false) : execExtract s = complete .errNoBuffer s := by
  rw [execExtract, if_pos hv]

theorem execExtract_of_outside {s : State} (hv : s.valid = true) (hout : s.rectOperand.outside s = true) :
    execExtract s = complete .ok ((s.setOutbuf []).setRes 0 0 0 0) := by
  simp [execExtract, hv, hout]

/-- Settles O56: both outside tests are strict and come after the buffer and length checks. -/
theorem outsideRectanglesAreNoOps : Obligations.OutsideRectanglesAreNoOps := by
  intro s hv hedge
  have hout := outside_eq_true.2 hedge
  exact ⟨fun hlen => execUpdate_of_outside hv hlen hout, execExtract_of_outside hv hout⟩

/-- What an EXTRACT that is not the no-op leaves: the rectangle in RES0 to RES3 and its bytes in OUTBUF. -/
structure Extracted (s : State) (r : Rect) (t : State) : Prop where
  frame : t = { s with
    res0 := t.res0, res1 := t.res1, res2 := t.res2, res3 := t.res3, outbuf := t.outbuf, code := 0, busy := false }
  res0 : t.res0.toNat = r.x
  res1 : t.res1.toNat = r.y
  res2 : t.res2.toNat = r.w
  res3 : t.res3.toNat = r.h
  length : t.outbuf.length = r.w * r.h
  byte : ∀ x y, x < r.w → y < r.h → t.outbuf[y * r.w + x]? = s.store.read (s.rectByte r x y)

theorem execExtract_extracted {s t : State} (hv : s.valid = true) (hin : s.rectOperand.outside s = false)
    (h : execExtract s = .next t) : Extracted s (computePart s.rectOperand s).rect t := by
  rcases execExtract_eq_next h with ⟨hv', -⟩ | ⟨-, hout, -⟩ | ⟨-, -, bytes, hread, rfl⟩
  · simp [hv] at hv'
  · simp [hin] at hout
  · obtain ⟨hx, hy, hw, hh⟩ := computePart_rect_lt s
    exact {
      frame := rfl
      res0 := ofNat_toNat_of_lt hx
      res1 := ofNat_toNat_of_lt hy
      res2 := ofNat_toNat_of_lt hw
      res3 := ofNat_toNat_of_lt hh
      length := by
        rw [computePart_rect_size, ← copyAddresses_length]
        exact readBytes_length hread
      byte := fun _ _ hx hy => readBytes_getElem hread (copyAddresses_getElem hx hy) }

theorem execExtract_of_good {s : State} (hv : s.valid = true) (hgood : GoodBuffer s)
    (hin : s.rectOperand.outside s = false) :
    ∃ t, execExtract s = .next t ∧ Extracted s (computePart s.rectOperand s).rect t := by
  obtain ⟨t, ht⟩ := execExtract_answers hgood
  exact ⟨t, ht, execExtract_extracted hv hin ht⟩

theorem computePart_rect_horizontal {s : State} (ho : s.orient = .horizontal) :
    (computePart s.rectOperand s).rect =
      { x := s.opx.toNat / 8, y := s.opy.toNat
        w := min (normalizeSpan s.opx.toNat s.opw.toNat).length (s.eightlen.toNat - s.opx.toNat / 8)
        h := min s.oph.toNat (s.height.toNat - s.opy.toNat) } := by
  simp only [computePart, ho]
  rfl

theorem computePart_rect_vertical {s : State} (ho : s.orient = .vertical) :
    (computePart s.rectOperand s).rect =
      { x := s.opx.toNat, y := s.opy.toNat / 8
        w := min s.opw.toNat (s.width.toNat - s.opx.toNat)
        h := min (normalizeSpan s.opy.toNat s.oph.toNat).length (s.eightlen.toNat - s.opy.toNat / 8) } := by
  simp only [computePart, ho]
  rfl

theorem stride_horizontal {s : State} (ho : s.orient = .horizontal) : s.stride = s.eightlen.toNat := by
  rw [State.stride, ho]

theorem stride_vertical {s : State} (ho : s.orient = .vertical) : s.stride = s.width.toNat := by
  rw [State.stride, ho]

/-- Settles O54: a row of the rectangle is `lc` bytes of a row of EIGHTLEN bytes. -/
theorem extractHorizontalCopiesBytes : Obligations.ExtractHorizontalCopiesBytes := by
  intro s hv ho hgood hx hy
  obtain ⟨t, ht, hext⟩ := execExtract_of_good hv hgood (outside_eq_false.2 ⟨hx, hy⟩)
  rw [computePart_rect_horizontal ho] at hext
  refine ⟨t, _, _, ht, rfl, rfl, hext.frame, hext.res0, BitVec.eq_of_toNat_eq hext.res1, hext.res2, hext.res3,
    hext.length, fun r c hr hc => ?_⟩
  exact (hext.byte c r hc hr).trans (by rw [State.rectByte, stride_horizontal ho])

/-- Settles O55: a row of the rectangle is `wc` bytes of a page of WIDTH bytes. -/
theorem extractVerticalCopiesBytes : Obligations.ExtractVerticalCopiesBytes := by
  intro s hv ho hgood hx hy
  obtain ⟨t, ht, hext⟩ := execExtract_of_good hv hgood (outside_eq_false.2 ⟨hx, hy⟩)
  rw [computePart_rect_vertical ho] at hext
  refine ⟨t, _, _, ht, rfl, rfl, hext.frame, BitVec.eq_of_toNat_eq hext.res0, hext.res1, hext.res2, hext.res3,
    hext.length.trans (Nat.mul_comm _ _), fun p c hp hc => ?_⟩
  exact (hext.byte c p hc hp).trans (by rw [State.rectByte, stride_vertical ho])

/-- Settles O57: the clipped span and side stay inside the buffer, so their product is at most STORELEN. -/
theorem extractStaysInStore : Obligations.ExtractStaysInStore := by
  intro s hv hb hin
  obtain ⟨-, hpacked, hother⟩ := computePart_inside hv hb hin
  obtain ⟨-, hstore, -⟩ := hb hv
  refine ⟨by omega, hpacked, hother, fun a => copyAddresses_lt_storelen hv hb hin, ?_, fun t ht => ?_⟩
  · rw [hstore]
    exact Nat.mul_le_mul (by omega) (by omega)
  · exact (execExtract_extracted hv hin ht).length.trans (computePart_rect_size _ s)

/-! ### Coverage (R132) -/

/-- The column of a pixel's byte in EXTRACT's units (R129). -/
def byteColumn (o : Orientation) (x : Nat) : Nat :=
  match o with
  | .horizontal => x / 8
  | .vertical => x

/-- The row, or page, of a pixel's byte in EXTRACT's units (R129). -/
def byteRow (o : Orientation) (y : Nat) : Nat :=
  match o with
  | .horizontal => y
  | .vertical => y / 8

theorem pixelAddress_index (s : State) (x y : Nat) :
    (s.pixelAddress x y).index = s.stride * byteRow s.orient y + byteColumn s.orient x := by
  unfold State.pixelAddress
  cases s.orient <;> rfl

/-- A requested byte of a pixel below the limit lies in the clamped span. -/
theorem span_covers {offset extent limit q : Nat} (hlo : offset ≤ q) (hhi : q < offset + extent)
    (hlimit : q / 8 < limit) :
    offset / 8 ≤ q / 8 ∧ q / 8 - offset / 8 < min (normalizeSpan offset extent).length (limit - offset / 8) := by
  obtain ⟨hstart, hend⟩ := (mem_normalizeSpan_iff (by omega) (q / 8)).2 ⟨q, hlo, hhi, rfl⟩
  simp only [normalizeSpan] at hstart hend ⊢
  omega

/-- A requested pixel below the limit lies in the clamped side. -/
theorem side_covers {offset extent limit q : Nat} (hlo : offset ≤ q) (hhi : q < offset + extent)
    (hlimit : q < limit) : offset ≤ q ∧ q - offset < min extent (limit - offset) := by
  omega

section
variable {s : State} (hv : s.valid = true) (hb : BufferInv s)
include hv hb

theorem computePart_covers_column {x : Nat} (hlo : s.opx.toNat ≤ x) (hhi : x < s.opx.toNat + s.opw.toNat)
    (hx : x < s.width.toNat) :
    (computePart s.rectOperand s).rect.x ≤ byteColumn s.orient x ∧
      byteColumn s.orient x - (computePart s.rectOperand s).rect.x < (computePart s.rectOperand s).rect.w := by
  obtain ⟨hlen, -, -⟩ := hb hv
  cases ho : s.orient with
  | horizontal =>
    rw [computePart_rect_horizontal ho, hlen, packedExtent, ho]
    exact span_covers hlo hhi (div_lt_eightLength hx)
  | vertical =>
    rw [computePart_rect_vertical ho]
    exact side_covers hlo hhi hx

theorem computePart_covers_row {y : Nat} (hlo : s.opy.toNat ≤ y) (hhi : y < s.opy.toNat + s.oph.toNat)
    (hy : y < s.height.toNat) :
    (computePart s.rectOperand s).rect.y ≤ byteRow s.orient y ∧
      byteRow s.orient y - (computePart s.rectOperand s).rect.y < (computePart s.rectOperand s).rect.h := by
  obtain ⟨hlen, -, -⟩ := hb hv
  cases ho : s.orient with
  | horizontal =>
    rw [computePart_rect_horizontal ho]
    exact side_covers hlo hhi hy
  | vertical =>
    rw [computePart_rect_vertical ho, hlen, packedExtent, ho]
    exact span_covers hlo hhi (div_lt_eightLength hy)

end

/-- Settles O58: along each axis the pixel's byte lies in the copied rectangle. -/
theorem extractCoversTheRequest : Obligations.ExtractCoversTheRequest := by
  intro s t x y hv hgood hin h hxlo hxhi hx hylo hyhi hy
  obtain ⟨-, hres0, hres1, hres2, hres3, -, hbyte⟩ := execExtract_extracted hv hin h
  obtain ⟨hcolumn, hc⟩ := computePart_covers_column hv hgood.1 hxlo hxhi hx
  obtain ⟨hrow, hr⟩ := computePart_covers_row hv hgood.1 hylo hyhi hy
  refine ⟨byteRow s.orient y - (computePart s.rectOperand s).rect.y,
    byteColumn s.orient x - (computePart s.rectOperand s).rect.x, ?_⟩
  rw [hres0, hres1, hres2, hres3, Nat.add_sub_cancel' hrow, Nat.add_sub_cancel' hcolumn]
  refine ⟨fun ho => ⟨hc, hr, by rw [ho, byteColumn], by rw [ho, byteRow]⟩,
    fun ho => ⟨hc, hr, by rw [ho, byteColumn], by rw [ho, byteRow]⟩, ?_⟩
  rw [hbyte _ _ hc hr, State.rectByte, Nat.add_assoc, Nat.add_sub_cancel' hrow, Nat.add_sub_cancel' hcolumn,
    pixelAddress_index]

/-! ### ASVEC (R131) -/

theorem execAsvec_of_noBuffer {s : State} (hv : s.valid = false) : execAsvec s = complete .errNoBuffer s := by
  rw [execAsvec, if_pos hv]

/-- Settles O59: ASVEC reads the addresses below STORELEN, each of which a good buffer has written. -/
theorem asvecReturnsTheStore : Obligations.AsvecReturnsTheStore := by
  refine ⟨decode_encode .asvec, fun s hv => execAsvec_of_noBuffer hv, fun s hv hgood => ?_⟩
  obtain ⟨t, ht⟩ := execAsvec_answers hgood
  rcases execAsvec_eq_next ht with ⟨hv', -⟩ | ⟨-, bytes, hread, rfl⟩
  · simp [hv] at hv'
  · exact ⟨_, ht, rfl, (readBytes_length hread).trans List.length_range,
      fun a ha => readBytes_getElem hread (List.getElem?_range ha)⟩

/-! ### Two readers one after the other (R133) -/

/-- The state `s` with OUTBUF, RES0 to RES3, CODE and BUSY of `r`: all that a reader writes (10_state.md R46). -/
def State.withResults (s r : State) : State :=
  { s with
    res0 := r.res0, res1 := r.res1, res2 := r.res2, res3 := r.res3, outbuf := r.outbuf, code := r.code, busy := r.busy }

theorem reader_withResults {i : Instr} (hi : i = .extract ∨ i = .asvec) {s t : State} (h : exec i s = .next t) :
    t = s.withResults t := by
  rcases hi with rfl | rfl
  · rcases execExtract_eq_next h with ⟨-, rfl⟩ | ⟨-, -, rfl⟩ | ⟨-, -, bytes, -, rfl⟩ <;> rfl
  · rcases execAsvec_eq_next h with ⟨-, rfl⟩ | ⟨-, bytes, -, rfl⟩ <;> rfl

theorem exec_extract (s : State) : exec .extract s = execExtract s := rfl

theorem exec_asvec (s : State) : exec .asvec s = execAsvec s := rfl

theorem reader_of_noBuffer {i : Instr} (hi : i = .extract ∨ i = .asvec) {s : State} (hv : s.valid = false) :
    exec i s = complete .errNoBuffer s := by
  rcases hi with rfl | rfl
  · exact execExtract_of_noBuffer hv
  · exact execAsvec_of_noBuffer hv

/-- The addresses a reader copies to OUTBUF while a buffer exists. -/
def readerAddresses (i : Instr) (s : State) : List Nat :=
  match i with
  | .extract => if s.rectOperand.outside s then [] else copyAddresses (computePart s.rectOperand s) s
  | .asvec => List.range s.storelen.toNat
  | .elen | .baddrH | .baddrV | .norm | .newH | .newV | .wdataH | .wdataV | .wpackH | .wpackV | .update => []

/-- While a buffer exists a reader answers exactly when its addresses can be read, and then with their bytes. -/
theorem reader_outbuf_iff {i : Instr} (hi : i = .extract ∨ i = .asvec) {s : State} (hv : s.valid = true)
    {bytes : List Byte} :
    (∃ t, exec i s = .next t ∧ t.outbuf = bytes) ↔ readBytes (readerAddresses i s) s = .ok bytes := by
  rcases hi with rfl | rfl
  · rw [exec_extract]
    cases hout : s.rectOperand.outside s with
    | true => simp [execExtract_of_outside hv hout, readerAddresses, hout, complete, readBytes]
    | false =>
      cases hr : readBytes (copyAddresses (computePart s.rectOperand s) s) s <;>
        simp [execExtract, readerAddresses, hv, hout, hr, complete]
  · rw [exec_asvec]
    cases hr : readBytes (List.range s.storelen.toNat) s <;> simp [execAsvec, readerAddresses, hv, hr, complete]

theorem readerAddresses_withResults (i : Instr) (s r : State) :
    readerAddresses i (s.withResults r) = readerAddresses i s := by
  cases i <;> rfl

theorem memRead_withResults (a : Nat) (s r : State) : memRead a (s.withResults r) = memRead a s := rfl

theorem readBytes_withResults (as : List Nat) (s r : State) : readBytes as (s.withResults r) = readBytes as s := by
  induction as with
  | nil => rfl
  | cons a as ih => rw [readBytes, readBytes, memRead_withResults, ih]

/-- Settles O60: the second reader reads the addresses it read without the first, from the same store. -/
theorem readersChangeNothingTheyRead : Obligations.ReadersChangeNothingTheyRead := by
  intro s t u i j hi hj ht hu
  obtain ⟨r, rfl⟩ : ∃ r, t = s.withResults r := ⟨t, reader_withResults hi ht⟩
  refine ⟨rfl, rfl, rfl, rfl, rfl, rfl, rfl, rfl, ?_⟩
  cases hv : s.valid with
  | false =>
    rw [reader_of_noBuffer hi hv, complete_eq_next] at ht
    rw [reader_of_noBuffer hj hv, complete_eq_next] at hu
    exact ⟨_, reader_of_noBuffer (s := s.withResults r) hj hv, by rw [State.finish_outbuf, ht, hu]⟩
  | true =>
    rw [reader_outbuf_iff (s := s.withResults r) hj hv, readerAddresses_withResults, readBytes_withResults,
      ← reader_outbuf_iff hj hv]
    exact ⟨u, hu, rfl⟩

end Sys2Proof.Machine
end

section
/-! SUPPORT. NEW, WDATA and WPACK (42_construction.md R150 to R159): the buffer a construction installs, the packing
WDATA draws, and how they agree with NEW followed by UPDATE, with WPACK, and with what ASVEC returns. -/

namespace Sys2Proof.Machine

open Sys2Proof.Safety

/-! ### The installed buffer (R155) -/

/-- `t` is the state after a construction that fits: the configuration is installed, the store may hold anything below
STORELEN, and the command completed with OK. -/
structure Installed (o : Orientation) (s t : State) : Prop where
  fits : s.requiredOperand o ≤ s.cfg.storeCap.val
  frame : t = ((s.install o s.opw s.oph (s.requiredOperand o)).setStore t.store).finish .ok
  above : ∀ a, t.storelen.toNat ≤ a → t.store.read a = s.store.read a

/-- `t` is the state after a construction from `bytes`, which the store holds from address 0 up. -/
structure Built (o : Orientation) (bytes : List Byte) (s t : State) : Prop extends Installed o s t where
  good : t.valid = true ∧ GoodBuffer t
  length : bytes.length = t.storelen.toNat
  read : ∀ a < t.storelen.toNat, t.store.read a = bytes[a]?

section
variable {o : Orientation} {s t : State} (h : Installed o s t)
include h

theorem Installed.eq_update :
    t = { s with
      valid := true, orient := o, bitord := bitOrderOf o, width := s.opw, height := s.oph
      eightlen := t.eightlen, storelen := t.storelen, store := t.store, code := 0, busy := false } := by
  rw [h.frame]
  rfl

theorem Installed.code_eq : t.code = 0 := by
  rw [h.frame]
  rfl

theorem Installed.eightlen_toNat : t.eightlen.toNat = eightLength (packedDim o s.opw.toNat s.oph.toNat) := by
  rw [h.frame]
  cases o <;> exact eightLength_toNat _

theorem Installed.storelen_toNat : t.storelen.toNat = s.requiredOperand o := by
  rw [h.frame]
  exact requiredOperand_toNat h.fits

end

theorem built_of_build {o : Orientation} {bytes : List Byte} {s u : State} (hu : build o bytes s = .ok u)
    (hlen : bytes.length = s.requiredOperand o) (hcap : s.requiredOperand o ≤ s.cfg.storeCap.val) :
    Built o bytes s (u.finish .ok) := by
  obtain ⟨hframe, hread⟩ := build_eq_ok hu
  have hinst : Installed o s (u.finish .ok) :=
    { fits := hcap, frame := congrArg (State.finish .ok) hframe, above := fun _ => build_read_above hu hlen hcap }
  have hstore := hinst.storelen_toNat
  exact { hinst with
    good := build_good (t := u) hu hlen hcap
    length := by omega
    read := fun a ha => (hread a).trans (if_pos (by omega)) }

/-- Drawing on an installed buffer leaves it installed. -/
theorem Installed.of_drawRect {o : Orientation} {s u w : State} {r : Rect} (h : Installed o s (u.finish .ok))
    (hw : drawRect r u = .ok w) : Installed o s (w.finish .ok) := by
  have habove := fun a => drawAll_read_above (a := a) hw
  obtain ⟨m, rfl⟩ := drawRect_onlyStore hw
  exact {
    fits := h.fits
    frame := congrArg (State.setStore m) h.frame
    above := fun a ha => (habove a ha).trans (h.above a ha) }

/-! ### NEW (R151) -/

section
variable {o : Orientation} {s : State}

theorem newBuffer_of_over (hover : s.cfg.storeCap.val < s.requiredOperand o) :
    newBuffer o s = complete .errLength s :=
  if_pos hover

theorem newBuffer_built {t : State} (h : newBuffer o s = .next t) (hok : t.code = 0) :
    Built o (zeroBytes o s) s t := by
  rcases newBuffer_eq_next h with ⟨-, rfl⟩ | ⟨hcap, u, hu, rfl⟩
  · simp [codeBits] at hok
  · exact built_of_build hu List.length_replicate hcap

theorem newBuffer_of_fits (hcap : s.requiredOperand o ≤ s.cfg.storeCap.val) :
    ∃ t, newBuffer o s = .next t ∧ Built o (zeroBytes o s) s t := by
  obtain ⟨t, ht⟩ := newBuffer_answers o s
  rcases newBuffer_eq_next ht with ⟨hover, -⟩ | ⟨-, u, hu, rfl⟩
  · omega
  · exact ⟨_, ht, built_of_build hu List.length_replicate hcap⟩

end

/-- NEW within the capacity, in either orientation. -/
theorem newBuffer_result (o : Orientation) (s : State) (hcap : s.requiredOperand o ≤ s.cfg.storeCap.val) :
    ∃ t, newBuffer o s = .next t ∧
      t = { s with
        valid := true, orient := o, bitord := bitOrderOf o, width := s.opw, height := s.oph
        eightlen := t.eightlen, storelen := t.storelen, store := t.store, code := 0, busy := false } ∧
      t.eightlen.toNat = eightLength (packedDim o s.opw.toNat s.oph.toNat) ∧
      t.storelen.toNat = s.requiredOperand o ∧
      (∀ a < t.storelen.toNat, t.store.read a = some 0) ∧
      ∀ a, t.storelen.toNat ≤ a → t.store.read a = s.store.read a := by
  obtain ⟨t, ht, hbuilt⟩ := newBuffer_of_fits hcap
  have hstore := hbuilt.storelen_toNat
  refine ⟨t, ht, hbuilt.eq_update, hbuilt.eightlen_toNat, hstore, fun a ha => ?_, hbuilt.above⟩
  rw [hbuilt.read a ha, zeroBytes, List.getElem?_replicate, if_pos (by omega)]

/-- Settles O41: the capacity check decides, and what fits is built from zero bytes. -/
theorem newBuildsZeroBuffer : Obligations.NewBuildsZeroBuffer :=
  ⟨decode_encode .newH, decode_encode .newV, fun s =>
    ⟨newBuffer_of_over (o := .horizontal), newBuffer_of_over (o := .vertical), newBuffer_result .horizontal s,
      newBuffer_result .vertical s⟩⟩

/-! ### WPACK (R153) -/

section
variable {o : Orientation} {s : State}

theorem wpackBuffer_of_misfit
    (hmisfit : s.inbuf.length ≠ s.requiredOperand o ∨ s.cfg.storeCap.val < s.inbuf.length) :
    wpackBuffer o s = complete .errLength s := by
  unfold wpackBuffer
  by_cases hlen : s.inbuf.length = s.requiredOperand o
  · rw [if_neg (not_not.2 hlen), if_pos (by omega)]
  · rw [if_pos hlen]

theorem wpackBuffer_built {t : State} (h : wpackBuffer o s = .next t) (hok : t.code = 0) :
    Built o s.inbuf s t := by
  rcases wpackBuffer_eq_next h with ⟨-, rfl⟩ | ⟨hlen, hcap, u, hu, rfl⟩
  · simp [codeBits] at hok
  · exact built_of_build hu hlen hcap

theorem wpackBuffer_of_fits (hlen : s.inbuf.length = s.requiredOperand o)
    (hcap : s.inbuf.length ≤ s.cfg.storeCap.val) :
    ∃ t, wpackBuffer o s = .next t ∧ Built o s.inbuf s t := by
  obtain ⟨t, ht⟩ := wpackBuffer_answers o s
  rcases wpackBuffer_eq_next ht with ⟨hmisfit, -⟩ | ⟨-, hfits, u, hu, rfl⟩
  · omega
  · exact ⟨_, ht, built_of_build hu hlen hfits⟩

end

/-- WPACK of the right length within the capacity, in either orientation. -/
theorem wpackBuffer_result (o : Orientation) (s : State) (hlen : s.inbuf.length = s.requiredOperand o)
    (hcap : s.inbuf.length ≤ s.cfg.storeCap.val) :
    ∃ t, wpackBuffer o s = .next t ∧
      t = { s with
        valid := true, orient := o, bitord := bitOrderOf o, width := s.opw, height := s.oph
        eightlen := t.eightlen, storelen := t.storelen, store := t.store, code := 0, busy := false } ∧
      t.eightlen.toNat = eightLength (packedDim o s.opw.toNat s.oph.toNat) ∧
      t.storelen.toNat = s.inbuf.length ∧
      (∀ a < t.storelen.toNat, t.store.read a = s.inbuf[a]?) ∧
      ∀ a, t.storelen.toNat ≤ a → t.store.read a = s.store.read a := by
  obtain ⟨t, ht, hbuilt⟩ := wpackBuffer_of_fits hlen hcap
  exact ⟨t, ht, hbuilt.eq_update, hbuilt.eightlen_toNat, hbuilt.length.symm, hbuilt.read, hbuilt.above⟩

/-- Settles O44: the two length checks decide, and what passes them is built from the bytes of INBUF. -/
theorem wpackStoresBytesVerbatim : Obligations.WpackStoresBytesVerbatim :=
  ⟨decode_encode .wpackH, decode_encode .wpackV, fun s =>
    ⟨wpackBuffer_of_misfit (o := .horizontal), wpackBuffer_of_misfit (o := .vertical),
      wpackBuffer_result .horizontal s, wpackBuffer_result .vertical s⟩⟩

/-! ### ASVEC after a construction (R158) -/

/-- ASVEC returns the bytes a buffer was built from. -/
theorem Built.asvec_returns {o : Orientation} {bytes : List Byte} {s t : State} (h : Built o bytes s t) :
    ∃ u, exec .asvec t = .next u ∧ u.code = 0 ∧ u.outbuf = bytes := by
  obtain ⟨-, -, hasvec⟩ := asvecReturnsTheStore
  obtain ⟨u, hu, hframe, hlen, hout⟩ := hasvec t h.good.1 h.good.2
  refine ⟨u, hu, by rw [hframe], List.ext_getElem? fun a => ?_⟩
  by_cases ha : a < t.storelen.toNat
  · rw [hout a ha, h.read a ha]
  · rw [List.getElem?_eq_none (by omega), List.getElem?_eq_none (by have := h.length; omega)]

/-- Settles O47: both constructions build the store from known bytes, which ASVEC returns. -/
theorem packedRoundTrip : Obligations.PackedRoundTrip := by
  refine ⟨fun s t i hi h hok => ?_, fun s t i hi h hok => ?_⟩
  · rcases hi with rfl | rfl
    · exact (wpackBuffer_built (o := .horizontal) h hok).asvec_returns
    · exact (wpackBuffer_built (o := .vertical) h hok).asvec_returns
  · have hbuilt : ∃ o, Built o (zeroBytes o s) s t := by
      rcases hi with rfl | rfl
      · exact ⟨.horizontal, newBuffer_built h hok⟩
      · exact ⟨.vertical, newBuffer_built h hok⟩
    obtain ⟨o, hbuilt⟩ := hbuilt
    rw [hbuilt.storelen_toNat]
    exact hbuilt.asvec_returns

/-! ### WDATA and the packing of its pixels (R152) -/

/-- The bit address of a pixel of a buffer of the size OPW and OPH ask for (40_calculator.md R115). -/
def State.operandAddress (o : Orientation) (s : State) (x y : Nat) : BitAddress :=
  bitAddress o x y (strideOf o s.opw.toNat)

theorem Installed.pixelAddress_eq {o : Orientation} {s t : State} (h : Installed o s t) (x y : Nat) :
    t.pixelAddress x y = s.operandAddress o x y := by
  rw [State.pixelAddress, State.operandAddress, State.stride, h.eightlen_toNat, h.frame]
  cases o <;> rfl

/-- `bit` is the packing of the pixels of INBUF: each pixel's bit is `mono` of its flat byte, and every bit below the
required length that no pixel owns is 0 (R152, R159). -/
structure IsPacking (o : Orientation) (s : State) (bit : Nat → Nat → Option Bool) : Prop where
  pixel : ∀ x y v, x < s.opw.toNat → y < s.oph.toNat → s.inbuf[y * s.opw.toNat + x]? = some v →
    bit (s.operandAddress o x y).index (s.operandAddress o x y).phys = some (decide (v ≠ 0))
  padding : ∀ a k, a < s.requiredOperand o → k < 8 →
    (∀ x y, x < s.opw.toNat → y < s.oph.toNat →
      a ≠ (s.operandAddress o x y).index ∨ k ≠ (s.operandAddress o x y).phys) →
    bit a k = some false

/-- There is one packing: the pixels decide every bit below the required length. -/
theorem IsPacking.iff_agrees {o : Orientation} {s : State} {bit bit' : Nat → Nat → Option Bool}
    (h : IsPacking o s bit) (hlen : s.inbuf.length = s.opw.toNat * s.oph.toNat) :
    IsPacking o s bit' ↔ ∀ a < s.requiredOperand o, ∀ k < 8, bit' a k = bit a k := by
  refine ⟨fun h' a ha k hk => ?_, fun hagree => ⟨fun x y v hx hy hv => ?_, fun a k ha hk hpad => ?_⟩⟩
  · by_cases hpad : ∀ x y, x < s.opw.toNat → y < s.oph.toNat →
        a ≠ (s.operandAddress o x y).index ∨ k ≠ (s.operandAddress o x y).phys
    · rw [h'.padding a k ha hk hpad, h.padding a k ha hk hpad]
    · push Not at hpad
      obtain ⟨x, y, hx, hy, rfl, rfl⟩ := hpad
      obtain ⟨v, hv, -⟩ := inPixel_of_lt (hlen ▸ rowMajor_lt hx hy)
      rw [h'.pixel x y v hx hy hv, h.pixel x y v hx hy hv]
  · exact (hagree _ (bitAddress_index_lt o hx hy) _ (bitAddress_phys_lt _ _ _ _)).trans
      (h.pixel x y v hx hy hv)
  · rw [hagree a ha k hk]
    exact h.padding a k ha hk hpad

theorem effWidth_fullRect (s : State) : effWidth s.fullRect s = s.width.toNat := by
  simp [effWidth, State.fullRect]

theorem effHeight_fullRect (s : State) : effHeight s.fullRect s = s.height.toNat := by
  simp [effHeight, State.fullRect]

/-- The update of the whole buffer draws every pixel of it (R152). -/
theorem drawRect_fullRect_pixel {s w : State} (hv : s.valid = true) (hb : BufferInv s)
    (hw : drawRect s.fullRect s = .ok w) {x y : Nat} (hx : x < s.width.toNat) (hy : y < s.height.toNat) :
    storeBit w (s.pixelAddress x y).index (s.pixelAddress x y).phys =
      some (monoBit (s.inPixel (y * s.width.toNat + x))) := by
  have hpixel := drawRect_pixel hv hb hw (by rwa [effWidth_fullRect]) (by rwa [effHeight_fullRect])
  rw [pixel, drawAll_pixelAddress hw] at hpixel
  simpa only [State.fullRect, Nat.zero_add] using hpixel

theorem drawRect_fullRect_other {s w : State} (hw : drawRect s.fullRect s = .ok w) {a k : Nat} (hk : k < 8)
    (hne : ∀ x y, x < s.width.toNat → y < s.height.toNat →
      a ≠ (s.pixelAddress x y).index ∨ k ≠ (s.pixelAddress x y).phys) :
    storeBit w a k = storeBit s a k := by
  refine drawRect_other hw hk fun i j hi hj => ?_
  rw [effWidth_fullRect] at hi
  rw [effHeight_fullRect] at hj
  simpa only [State.fullRect, Nat.zero_add] using hne i j hi hj

theorem Built.storeBit_zeroBytes {o : Orientation} {s t : State} (h : Built o (zeroBytes o s) s t) {a : Nat}
    (ha : a < s.requiredOperand o) (k : Nat) : storeBit t a k = some false := by
  have hread := h.read a (h.storelen_toNat ▸ ha)
  rw [zeroBytes, List.getElem?_replicate, if_pos ha] at hread
  rw [storeBit, hread, Option.map_some, BitVec.ofNat_eq_ofNat, BitVec.getLsbD_zero]

/-- The update of the whole buffer packs the pixels on a store of zero bytes. -/
theorem isPacking_of_drawn {o : Orientation} {s u w : State} (hu : build o (zeroBytes o s) s = .ok u)
    (hcap : s.requiredOperand o ≤ s.cfg.storeCap.val) (hw : drawRect u.fullRect u = .ok w) :
    IsPacking o s (storeBit (w.finish .ok)) := by
  have hbuilt := built_of_build hu List.length_replicate hcap
  obtain ⟨hv, hgood⟩ := build_good hu List.length_replicate hcap
  have haddr := hbuilt.pixelAddress_eq
  have hpixel := fun x y => drawRect_fullRect_pixel (x := x) (y := y) hv hgood.1 hw
  have hother := fun a k => drawRect_fullRect_other (a := a) (k := k) hw
  obtain ⟨m, rfl⟩ := build_onlyBuffer hu
  refine ⟨fun x y v hx hy hread => ?_, fun a k ha hk hpad => ?_⟩
  · rw [← monoBit_mono, ← inPixel_of_getElem? hread, ← haddr]
    exact hpixel x y hx hy
  · exact (hother a k hk fun x y hx hy => haddr x y ▸ hpad x y hx hy).trans (hbuilt.storeBit_zeroBytes ha k)

section
variable {o : Orientation} {s : State}

theorem wdataBuffer_built {t : State} (h : wdataBuffer o s = .next t) (hok : t.code = 0) :
    s.inbuf.length = s.opw.toNat * s.oph.toNat ∧ Installed o s t ∧ IsPacking o s (storeBit t) := by
  rcases wdataBuffer_eq_next h with ⟨-, rfl⟩ | ⟨hlen, hcap, u, w, hu, hw, rfl⟩
  · simp [codeBits] at hok
  · have hbuilt := built_of_build hu List.length_replicate hcap
    exact ⟨hlen, hbuilt.of_drawRect hw, isPacking_of_drawn hu hcap hw⟩

variable (hlen : s.inbuf.length = s.opw.toNat * s.oph.toNat) (hcap : s.requiredOperand o ≤ s.cfg.storeCap.val)
include hlen hcap

/-- WDATA that passes its checks is a build from zero bytes and the update of the whole buffer. -/
theorem wdataBuffer_of_fits :
    ∃ u w, build o (zeroBytes o s) s = .ok u ∧ drawRect u.fullRect u = .ok w ∧
      wdataBuffer o s = .next (w.finish .ok) := by
  obtain ⟨t, ht⟩ := wdataBuffer_answers o s
  rcases wdataBuffer_eq_next ht with ⟨hmisfit, -⟩ | ⟨-, -, u, w, hu, hw, rfl⟩
  · omega
  · exact ⟨u, w, hu, hw, ht⟩

/-- WDATA of the right length within the capacity, in either orientation. -/
theorem wdataBuffer_result : ∃ t, wdataBuffer o s = .next t ∧ Installed o s t ∧ IsPacking o s (storeBit t) := by
  obtain ⟨u, w, -, -, ht⟩ := wdataBuffer_of_fits hlen hcap
  exact ⟨_, ht, (wdataBuffer_built ht rfl).2⟩

end

/-- Settles O42: the Horizontal packing on the installed buffer. -/
theorem wdataHorizontalPacksPixels : Obligations.WdataHorizontalPacksPixels := by
  intro s hlen hcap
  obtain ⟨t, ht, hinst, hpack⟩ := wdataBuffer_result (o := .horizontal) hlen hcap
  exact ⟨t, ht, hinst.eq_update, hinst.eightlen_toNat, hinst.storelen_toNat, hpack.pixel,
    fun a k ha => hpack.padding a k (hinst.storelen_toNat ▸ ha), hinst.above⟩

/-- Settles O43: the Vertical packing on the installed buffer. -/
theorem wdataVerticalPacksPixels : Obligations.WdataVerticalPacksPixels := by
  intro s hlen hcap
  obtain ⟨t, ht, hinst, hpack⟩ := wdataBuffer_result (o := .vertical) hlen hcap
  exact ⟨t, ht, hinst.eq_update, hinst.eightlen_toNat, hinst.storelen_toNat, hpack.pixel,
    fun a k ha => hpack.padding a k (hinst.storelen_toNat ▸ ha), hinst.above⟩

/-! ### WDATA against NEW and UPDATE (R157) -/

/-- A completed construction as the host hands it to UPDATE of the whole buffer: OPX and OPY are 0. -/
def State.completedAtOrigin (s : State) : State :=
  { s.finish .ok with opx := 0, opy := 0 }

/-- Drawing reads and writes none of CODE, BUSY, OPX and OPY. -/
theorem draw_completedAtOrigin {x y : Nat} {c : Mono} {s t : State} (h : draw x y c s = .ok t) :
    draw x y c s.completedAtOrigin = .ok t.completedAtOrigin := by
  obtain ⟨hin, v, hv, rfl⟩ := drawByte_eq_ok.1 h
  exact drawByte_eq_ok.2 ⟨hin, v, hv, rfl⟩

theorem drawAll_completedAtOrigin {ps : List PixelWrite} {s t : State} (h : drawAll ps s = .ok t) :
    drawAll ps s.completedAtOrigin = .ok t.completedAtOrigin := by
  induction ps generalizing s with
  | nil =>
    obtain rfl := Except.ok.inj h
    rfl
  | cons p ps ih =>
    cases hd : draw p.x p.y p.c s with
    | error f => simp [drawAll, hd] at h
    | ok u =>
      rw [drawAll, hd] at h
      rw [drawAll, draw_completedAtOrigin hd]
      exact ih h

/-- The buffer NEW builds, updated as a whole, has the store WDATA leaves. -/
theorem wdataBuffer_eq_newBuffer_update {o : Orientation} {s : State}
    (hlen : s.inbuf.length = s.opw.toNat * s.oph.toNat) (hcap : s.requiredOperand o ≤ s.cfg.storeCap.val) :
    ∃ t1 t2 t3, wdataBuffer o s = .next t1 ∧ newBuffer o s = .next t2 ∧
      exec .update { t2 with opx := 0, opy := 0 } = .next t3 ∧ t3.code = 0 ∧ t3.store = t1.store := by
  obtain ⟨u, w, hu, hw, hwdata⟩ := wdataBuffer_of_fits hlen hcap
  have hnew : newBuffer o s = .next (u.finish .ok) := by
    rw [newBuffer, if_neg (by omega), hu]
    rfl
  obtain ⟨m, rfl⟩ := build_onlyBuffer hu
  have hupdate := execUpdate_of_inside
    (s := ((s.install o s.opw s.oph (s.requiredOperand o)).setStore m).completedAtOrigin) rfl hlen
    (outside_eq_false.2 ⟨Nat.zero_le _, Nat.zero_le _⟩)
  refine ⟨_, _, w.completedAtOrigin.finish .ok, hwdata, hnew, ?_, rfl, rfl⟩
  exact hupdate.trans (congrArg completeBody (drawAll_completedAtOrigin hw))

/-- Settles O46: both orientations of the store equality. -/
theorem wdataEqualsNewThenUpdate : Obligations.WdataEqualsNewThenUpdate :=
  fun _ hlen =>
    ⟨wdataBuffer_eq_newBuffer_update (o := .horizontal) hlen, wdataBuffer_eq_newBuffer_update (o := .vertical) hlen⟩

/-! ### WDATA against WPACK (R159) -/

/-- Of two commands the orientation chooses WPACK's (R153). -/
theorem exec_wpack (o : Orientation) (s : State) :
    exec (if o = .horizontal then .wpackH else .wpackV) s = wpackBuffer o s := by
  cases o <;> rfl

theorem read_eq_iff_storeBit {s t : State} {a : Nat} :
    s.store.read a = t.store.read a ↔ ∀ k < 8, storeBit s a k = storeBit t a k :=
  ⟨fun h k _ => by rw [storeBit, storeBit, h], read_eq_of_storeBit⟩

/-- A buffer built from bytes holds their bits. -/
theorem Built.storeBit_eq {o : Orientation} {bytes : List Byte} {s t : State} (h : Built o bytes s t) {a : Nat}
    (ha : a < t.storelen.toNat) (k : Nat) : storeBit t a k = some ((bytes.getD a 0).getLsbD k) := by
  have hlt : a < bytes.length := h.length ▸ ha
  rw [storeBit, h.read a ha, List.getD_eq_getElem?_getD, List.getElem?_eq_getElem hlt]
  rfl

/-- Settles O48: a store has the bytes of WDATA's store exactly when its bits are the one packing of the pixels. -/
theorem packingEquivalence : Obligations.PackingEquivalence := by
  intro s t o packed h hok hlen
  have hwdata : wdataBuffer o s = .next t := by
    rcases h with ⟨rfl, h⟩ | ⟨rfl, h⟩ <;> exact h
  obtain ⟨hinbuf, hinst, hpack⟩ := wdataBuffer_built hwdata hok
  have hstore := hinst.storelen_toNat
  have hcap := hinst.fits
  obtain ⟨u, hu, hbuilt⟩ := wpackBuffer_of_fits (o := o) (s := s.setInbuf packed) (hlen.trans hstore)
    ((hlen.trans hstore).trans_le hcap)
  refine ⟨u, (exec_wpack o _).trans hu, hbuilt.code_eq, ?_, ?_⟩
  · rw [hinst.frame]
    exact hbuilt.frame
  · have hagree : (∀ a < t.storelen.toNat, u.store.read a = t.store.read a) ↔
        IsPacking o s fun a k => some ((packed.getD a 0).getLsbD k) := by
      rw [hpack.iff_agrees hinbuf, hstore]
      refine forall₂_congr fun a ha => ?_
      rw [read_eq_iff_storeBit]
      refine forall₂_congr fun k _ => ?_
      rw [hbuilt.storeBit_eq (hbuilt.storelen_toNat ▸ ha)]
      rfl
    rw [hagree, hlen, hstore]
    simp only [hinst.pixelAddress_eq]
    exact ⟨fun ⟨hpixel, hpadding⟩ => ⟨fun x y v hx hy hv => Option.some.inj (hpixel x y v hx hy hv),
        fun a k ha hk hpad => Option.some.inj (hpadding a k ha hk hpad)⟩,
      fun ⟨hpixel, hpadding⟩ => ⟨fun x y v hx hy hv => congrArg some (hpixel x y v hx hy hv),
        fun a k ha hk hpad => congrArg some (hpadding a k ha hk hpad)⟩⟩

end Sys2Proof.Machine
end

section
/-! SUPPORT. How a command completes (60_exceptions.md R170 to R176, R188): the checks in their order, what a failed one
answers, and that a completed command either failed a check, and then recorded nothing but the code, or has code OK. -/

namespace Sys2Proof.Machine

open Sys2Proof.Safety

/-! ### The two checks (R172, R173) -/

section
variable {i : Instr} {s : State}

theorem lacksBuffer_eq_true :
    lacksBuffer i s = true ↔ s.valid = false ∧ (i = .update ∨ i = .extract ∨ i = .asvec) := by
  cases i <;> simp [lacksBuffer]

/-- Only the constructions and UPDATE check a length (R172). -/
theorem checksLength_of_lengthFails (h : lengthFails i s = true) :
    i = .newH ∨ i = .newV ∨ i = .wdataH ∨ i = .wdataV ∨ i = .wpackH ∨ i = .wpackV ∨ i = .update := by
  cases i with
  | elen | baddrH | baddrV | norm | extract | asvec => exact absurd h Bool.false_ne_true
  | newH | newV | wdataH | wdataV | wpackH | wpackV | update => simp

/-- A transfer command that passes the buffer check has a buffer. -/
theorem valid_of_lacksBuffer_eq_false (hi : i = .update ∨ i = .extract ∨ i = .asvec) (h : lacksBuffer i s = false) :
    s.valid = true := by
  by_contra hv
  rw [lacksBuffer_eq_true.2 ⟨Bool.eq_false_of_not_eq_true hv, hi⟩] at h
  cases h

theorem wdataBuffer_of_failed_check {o : Orientation}
    (hcheck : s.inbuf.length ≠ s.opw.toNat * s.oph.toNat ∨ s.cfg.storeCap.val < s.requiredOperand o) :
    wdataBuffer o s = complete .errLength s := by
  unfold wdataBuffer
  by_cases hlen : s.inbuf.length = s.opw.toNat * s.oph.toNat
  · rw [if_neg (not_not.2 hlen), if_pos (by omega)]
  · rw [if_pos hlen]

theorem wpackBuffer_of_failed_check {o : Orientation}
    (hcheck : s.inbuf.length ≠ s.requiredOperand o ∨ s.cfg.storeCap.val < s.requiredOperand o) :
    wpackBuffer o s = complete .errLength s :=
  wpackBuffer_of_misfit (by omega)

/-- A missing buffer decides (R173). -/
theorem exec_of_lacksBuffer (h : lacksBuffer i s = true) : exec i s = complete .errNoBuffer s := by
  obtain ⟨hv, rfl | hi⟩ := lacksBuffer_eq_true.1 h
  · exact execUpdate_of_noBuffer hv
  · exact reader_of_noBuffer hi hv

/-- A failed length check decides once the buffer is there, where one is needed (R172, R176). -/
theorem exec_of_lengthFails (hbuf : lacksBuffer i s = false) (h : lengthFails i s = true) :
    exec i s = complete .errLength s := by
  cases i with
  | elen | baddrH | baddrV | norm | extract | asvec => exact absurd h Bool.false_ne_true
  | newH | newV => exact newBuffer_of_over (of_decide_eq_true h)
  | wdataH | wdataV => exact wdataBuffer_of_failed_check (of_decide_eq_true h)
  | wpackH | wpackV => exact wpackBuffer_of_failed_check (of_decide_eq_true h)
  | update => exact execUpdate_of_length_ne (valid_of_lacksBuffer_eq_false (.inl rfl) hbuf) (of_decide_eq_true h)

end

/-! ### What a completed command has done (R175) -/

/-- A command that completes ran its body and has code OK, or it failed a check and changed only CODE and BUSY. -/
theorem exec_code_cases {i : Instr} {s t : State} (h : exec i s = .next t) :
    t.code = 0 ∨ (lacksBuffer i s = true ∧ t = s.finish .errNoBuffer) ∨
      (lengthFails i s = true ∧ t = s.finish .errLength) := by
  cases i with
  | elen | baddrH | baddrV | norm => exact .inl (complete_eq_next.1 h ▸ rfl)
  | newH | newV =>
    rcases newBuffer_eq_next h with ⟨hover, ht⟩ | ⟨-, u, -, rfl⟩
    · exact .inr (.inr ⟨decide_eq_true hover, ht⟩)
    · exact .inl rfl
  | wdataH | wdataV =>
    rcases wdataBuffer_eq_next h with ⟨hmisfit, ht⟩ | ⟨-, -, u, w, -, -, rfl⟩
    · exact .inr (.inr ⟨decide_eq_true hmisfit, ht⟩)
    · exact .inl rfl
  | wpackH | wpackV =>
    rcases wpackBuffer_eq_next h with ⟨hmisfit, ht⟩ | ⟨-, -, u, -, rfl⟩
    · exact .inr (.inr ⟨decide_eq_true hmisfit, ht⟩)
    · exact .inl rfl
  | update =>
    rcases execUpdate_eq_next h with ⟨hv, ht⟩ | ⟨-, hlen, ht⟩ | ⟨-, -, -, rfl⟩ | ⟨-, -, -, u, -, rfl⟩
    · exact .inr (.inl ⟨lacksBuffer_eq_true.2 ⟨hv, .inl rfl⟩, ht⟩)
    · exact .inr (.inr ⟨decide_eq_true hlen, ht⟩)
    · exact .inl rfl
    · exact .inl rfl
  | extract =>
    rcases execExtract_eq_next h with ⟨hv, ht⟩ | ⟨-, -, rfl⟩ | ⟨-, -, bytes, -, rfl⟩
    · exact .inr (.inl ⟨lacksBuffer_eq_true.2 ⟨hv, .inr (.inl rfl)⟩, ht⟩)
    · exact .inl rfl
    · exact .inl rfl
  | asvec =>
    rcases execAsvec_eq_next h with ⟨hv, ht⟩ | ⟨-, bytes, -, rfl⟩
    · exact .inr (.inl ⟨lacksBuffer_eq_true.2 ⟨hv, .inr (.inr rfl)⟩, ht⟩)
    · exact .inl rfl

/-- ERR_LENGTH comes from a failed length check only (R172). -/
theorem lengthFails_of_code_eq_one {i : Instr} {s t : State} (h : exec i s = .next t) (hc : t.code = 1) :
    lengthFails i s = true := by
  rcases exec_code_cases h with h0 | ⟨-, rfl⟩ | ⟨hlen, -⟩
  · simp [hc] at h0
  · simp [codeBits] at hc
  · exact hlen

/-- ERR_NO_BUFFER comes from a missing buffer only (R173). -/
theorem lacksBuffer_of_code_eq_two {i : Instr} {s t : State} (h : exec i s = .next t) (hc : t.code = 2) :
    lacksBuffer i s = true := by
  rcases exec_code_cases h with h0 | ⟨hbuf, -⟩ | ⟨-, rfl⟩
  · simp [hc] at h0
  · exact hbuf
  · simp [codeBits] at hc

/-- A command that passes both checks completes with OK, if it completes. -/
theorem code_eq_zero_of_checks {i : Instr} {s t : State} (h : exec i s = .next t) (hbuf : lacksBuffer i s = false)
    (hlen : lengthFails i s = false) : t.code = 0 := by
  rcases exec_code_cases h with h0 | ⟨hbuf', -⟩ | ⟨hlen', -⟩
  · exact h0
  · exact absurd hbuf' (by simp [hbuf])
  · exact absurd hlen' (by simp [hlen])

theorem runPending_of_legal {i : Instr} {s : State} (h : decode s.pending = .ok i) : runPending s = exec i s := by
  rw [runPending, h]

/-! ### The obligations of 60_exceptions.md -/

/-- Settles O6: with BUSY = 0 all that the engine's turn does is to be taken off the schedule. -/
theorem idleEngineKeepsState : Obligations.IdleEngineKeepsState := by
  intro s hz hb hn
  simp [step, hn, takeTurn, hz, engineTurn, hb, State.dropTurn]

/-- Settles O22: every command answers on a good buffer or with none, and every answer is a completion. -/
theorem everyCommandCompletes : Obligations.EveryCommandCompletes := by
  intro s i hgood
  obtain ⟨t, ht⟩ := exec_answers hgood i
  obtain ⟨u, c, -, rfl⟩ := exec_completes ht
  exact ⟨_, ht, rfl⟩

/-- Settles O24: a code other than OK is that of a failed check or of an illegal word, and neither has an effect. -/
theorem failedCommandChangesOnlyCode : Obligations.FailedCommandChangesOnlyCode := by
  intro s t h hne
  rcases runPending_eq_next h with ⟨i, -, hi⟩ | ⟨e, -, rfl⟩
  · rcases exec_code_cases hi with h0 | ⟨-, rfl⟩ | ⟨-, rfl⟩
    · exact absurd h0 hne
    · rfl
    · rfl
  · rfl

/-- Settles O27: each check that gives a code belongs to the commands listed for it. -/
theorem codesComeFromTheirCommands : Obligations.CodesComeFromTheirCommands := by
  intro s t h
  rcases runPending_eq_next h with ⟨i, hd, hi⟩ | ⟨e, hd, rfl⟩
  · rcases exec_code_cases hi with h0 | ⟨hbuf, rfl⟩ | ⟨hlen, rfl⟩
    · exact .inl ⟨h0, i, hd⟩
    · exact .inr (.inr (.inl ⟨rfl, i, hd, (lacksBuffer_eq_true.1 hbuf).2⟩))
    · exact .inr (.inl ⟨rfl, i, hd, checksLength_of_lengthFails hlen⟩)
  · exact .inr (.inr (.inr ⟨rfl, by simp [hd]⟩))

/-- Settles O28: the decoder comes first, then the buffer check, the length check, and the outside test of UPDATE and
EXTRACT. -/
theorem outcomesHaveTheirPriority : Obligations.OutcomesHaveTheirPriority := by
  refine fun s => ⟨fun hillegal => runPending_of_illegal hillegal, fun i hd => ?_⟩
  rw [runPending_of_legal hd]
  refine ⟨fun hbuf => exec_of_lacksBuffer hbuf, fun hbuf => ⟨fun hlen => exec_of_lengthFails hbuf hlen, fun hlen =>
    ⟨?update, ?extract, fun t ht => code_eq_zero_of_checks ht hbuf hlen⟩⟩⟩
  case update =>
    rintro rfl hedge
    have hv := valid_of_lacksBuffer_eq_false (.inl rfl) hbuf
    exact (outsideRectanglesAreNoOps s hv hedge).1 (not_not.1 (of_decide_eq_false hlen))
  case extract =>
    rintro rfl hedge
    have hv := valid_of_lacksBuffer_eq_false (.inr (.inl rfl)) hbuf
    exact (outsideRectanglesAreNoOps s hv hedge).2

/-- Settles O45: a failed length check decides, and nothing else gives its code. -/
theorem lengthErrorsAndTheirCauses : Obligations.LengthErrorsAndTheirCauses :=
  ⟨fun _ _ hbuf hlen => exec_of_lengthFails hbuf hlen, fun _ _ _ h hc => lengthFails_of_code_eq_one h hc⟩

/-- Settles O53: a missing buffer decides, and nothing else gives its code. -/
theorem noBufferErrors : Obligations.NoBufferErrors :=
  ⟨fun _ hv => ⟨execUpdate_of_noBuffer hv, execExtract_of_noBuffer hv, execAsvec_of_noBuffer hv⟩,
    fun _ _ _ h hc => (lacksBuffer_eq_true.1 (lacksBuffer_of_code_eq_two h hc)).2⟩

end Sys2Proof.Machine
end

section
/-! SUPPORT. Reset and the host hazards (70_reset_and_hazards.md R190 to R197), and the wait for a command in flight
(R201): what a step is on a reset turn, on a hazard, with the mark set, and on the engine's turn with BUSY = 1. -/

namespace Sys2Proof.Machine

open Sys2Proof.Safety

/-! ### The step, turn by turn -/

/-- The one read allowed while BUSY = 1 is that of STATUS (70_reset_and_hazards.md R196). -/
theorem isStatusRead_eq_true {x : Transaction} : isStatusRead x = true ↔ x = .rd 0x01 := by
  cases x with
  | rd i => exact decide_eq_true_iff.trans (by simp [regIndex])
  | wr | loadin | readout => simp [isStatusRead]

section
variable {s : State}

/-- A reset turn moves whatever is in flight and whether or not the mark is set (70_reset_and_hazards.md R190). -/
theorem step_of_reset (hn : s.nextTurn = .reset) : step s = .next s.dropTurn.afterReset := by
  simp [step, hn, takeTurn]

/-- With the mark set no turn but reset moves (70_reset_and_hazards.md R197, log entry 4). -/
theorem step_of_marked {info : HazardInfo} (hz : s.hazard = some info) (hn : s.nextTurn ≠ .reset) :
    step s = .fault (.hostHazard info) := by
  cases hx : s.nextTurn with
  | reset => exact absurd hx hn
  | engine | host => simp [step, hx, takeTurn, hz]

/-- A transaction made while BUSY = 1 is a hazard (70_reset_and_hazards.md R194 to R196). -/
theorem step_of_hazard {x : Transaction} (hz : s.hazard = none) (hb : s.busy = true) (hn : s.nextTurn = .host x)
    (hx : isStatusRead x = false) (hwf : WellFormed.transaction s.cfg x = true) :
    step s = .next (s.dropTurn.raiseHazard (hazardInfo x)) := by
  simp [step, hn, takeTurn, hz, hostTurn, hwf, hb, hx]

/-- With BUSY = 1 the engine's turn runs the pending word, legal or not (10_state.md R42). -/
theorem step_of_busy_engine (hz : s.hazard = none) (hb : s.busy = true) (hn : s.nextTurn = .engine) :
    step s = runPending s.dropTurn := by
  simp [step, hn, takeTurn, hz, engineTurn, hb]

/-! ### What sets the mark -/

theorem runPending_hazard {t : State} (h : runPending s = .next t) : t.hazard = s.hazard := by
  obtain ⟨-, -, -, -, -, -, -, hhazard, -⟩ := hostOwned_eq_iff.1 (runPending_hostOwned h)
  exact hhazard

theorem transact_hazard (x : Transaction) (s : State) : (transact x s).hazard = s.hazard := by
  rw [transact_frame]

/-- A transaction that leaves a mark where there was none was made while BUSY = 1 and is not `rd STATUS`. -/
theorem hazard_of_hostTurn {x : Transaction} {t : State} (h : hostTurn x s = .next t) (hz : s.hazard = none)
    (ht : t.hazard ≠ none) : s.busy = true ∧ x ≠ .rd 0x01 := by
  obtain ⟨-, ⟨hb, hx, -⟩ | ⟨-, rfl⟩⟩ := hostTurn_eq_next h
  · exact ⟨hb, fun hrd => by simp [isStatusRead_eq_true.2 hrd] at hx⟩
  · exact absurd ((transact_hazard x s).trans hz) ht

/-! ### The wait -/

/-- With no turn listed the engine moves, completes what is in flight and records nothing. -/
theorem completes_of_schedule_eq_nil (hgood : GoodBuffer s) (hz : s.hazard = none) (hb : s.busy = true)
    (hnil : s.schedule = []) : ∃ t, step s = .next t ∧ t.busy = false ∧ t.observed = s.observed := by
  have hdrop : GoodBuffer s.dropTurn := hgood
  obtain ⟨t, ht⟩ := runPending_answers hdrop
  have hn : s.nextTurn = .engine := by simp [State.nextTurn, hnil]
  obtain ⟨-, -, -, -, -, -, -, -, -, -, hobs⟩ := hostOwned_eq_iff.1 (runPending_hostOwned ht)
  exact ⟨t, (step_of_busy_engine hz hb hn).trans ht, runPending_busy ht, hobs⟩

end

/-! ### The obligations -/

/-- Settles O7, by induction on the reads still to come: each is allowed and leaves the command in flight, and after the
last one the engine completes it. -/
theorem waitingHostSeesCompletion : Obligations.WaitingHostSeesCompletion := by
  intro s hgood hz hb hreads
  induction hsched : s.schedule generalizing s with
  | nil =>
    obtain ⟨t, ht, hidle, hobs⟩ := completes_of_schedule_eq_nil hgood hz hb hsched
    exact ⟨t, run_succ_of_next 0 ht, hidle, by simp [hobs]⟩
  | cons x xs ih =>
    obtain ⟨rfl, hrest⟩ := List.forall_mem_cons.1 (hsched ▸ hreads)
    have hn : s.nextTurn = .host (.rd 0x01) := by simp [State.nextTurn, hsched]
    have htail : s.dropTurn.schedule = xs := by simp [State.dropTurn, hsched]
    have hread := step_of_read hz hn (.inr rfl)
    obtain ⟨t, hrun, hidle, hobs⟩ :=
      ih (s.dropTurn.observe (.word 0x01 (readIndex 0x01 s))) hgood hz hb (htail ▸ hrest) htail
    refine ⟨t, (run_succ_of_next _ hread).trans hrun, hidle, ?_⟩
    simp only [hobs, State.observe_observed, State.dropTurn_observed, List.length_cons]
    omega

/-- Settles O17: of the turns that can follow a state without the mark, only a hazard sets it. -/
theorem onlyBusyTransactionsSetTheMark : Obligations.OnlyBusyTransactionsSetTheMark := by
  intro s t info hz hs ht
  have hdrop : s.dropTurn.hazard = none := hz
  have hmark : t.hazard ≠ none := by simp [ht]
  rcases step_eq_next hs with ⟨-, rfl⟩ | ⟨-, ⟨-, -, rfl⟩ | ⟨-, -, hr⟩ | ⟨x, hn, hx⟩⟩
  · exact absurd rfl hmark
  · exact absurd hdrop hmark
  · exact absurd ((runPending_hazard hr).trans hdrop) hmark
  · obtain ⟨hb, hne⟩ := hazard_of_hostTurn hx hdrop hmark
    exact ⟨hb, x, hn, hne⟩

/-- Settles O15: the transaction is a hazard, and `hazardInfo` is its kind and index. -/
theorem hostHazardSetsTheMark : Obligations.HostHazardSetsTheMark := by
  intro s x hz hb hn hx hfits
  have hstatus : isStatusRead x = false := Bool.eq_false_iff.2 (mt isStatusRead_eq_true.1 hx)
  have hwf : WellFormed.transaction s.cfg x = true := by
    by_contra hbad
    obtain ⟨bytes, hload, hlong⟩ := transaction_eq_false (eq_false_of_ne_true hbad)
    exact absurd (hfits bytes hload) (Nat.not_le_of_lt hlong)
  refine ⟨_, hazardInfo x, step_of_hazard hz hb hn hstatus hwf, rfl, ?_, ?_, ?_, ?_⟩
  all_goals
    intros
    subst x
    rfl

/-- Settles O16: the mark stops every turn but reset, and the state a reset leaves has none. -/
theorem hazardStopsAllButReset : Obligations.HazardStopsAllButReset :=
  fun _ _ hz => ⟨step_of_marked hz, fun hn => ⟨_, step_of_reset hn, rfl⟩⟩

/-- Settles O19: the state after a reset turn is written as the reset record with the kept fields. -/
theorem resetTurnGivesResetValues : Obligations.ResetTurnGivesResetValues :=
  fun _ hn => ⟨_, step_of_reset hn, rfl⟩

end Sys2Proof.Machine
end
